-- ==== Sys2Proof/Word.lean ====
section
/-!
DEFINITION. The block's words: 8-bit bytes, 32-bit registers and byte strings (R13, R14, R15).
-/

namespace Sys2Proof

/-- An 8-bit byte: a buffer byte, a seq code, a counter (R13). -/
abbrev Byte := BitVec 8

/-- A 32-bit host register, length or offset (R13). -/
abbrev Word := BitVec 32

/-- A byte string: a finite sequence of bytes, index 0 first on the wire (R15). -/
abbrev ByteString := List Byte

end Sys2Proof
end

