-- ==== Sys2Proof/Config.lean ====
section
/-!
DEFINITION. What one block fixes: the parameters of R11 with their defaults, and the two values the
spec leaves open, as constants without a body.
-/

namespace Sys2Proof

/-- DIGEST_FORMAT: how a byte sum becomes nine bytes (R11, R89, R90). -/
inductive DigestFormat where
  /-- Nine lower-case ASCII hexadecimal digits (R89). -/
  | hex9
  /-- Nine bytes of big-endian binary (R90). -/
  | bin9
  deriving DecidableEq, Repr

/-- The byte-addressed storage of the block (R47). -/
inductive Space where
  /-- The input buffer IBUF. -/
  | ibuf
  /-- The output buffer OBUF. -/
  | obuf
  /-- The sender's payload memory PMEM. -/
  | pmem
  /-- The retransmission copy `snd.frame`, which no host access reaches. -/
  | frame
  deriving DecidableEq, Repr

/-- TEXT_OK as plain data (R11: any total function from byte strings to Bool).
DESIGN CHOICE (log 2): `free k` stands for an arbitrary predicate nothing is known of; `allBut l`
rejects the listed payloads only, so `allBut []` is the spec's neutral choice "always true". -/
inductive TextCheck where
  /-- Accepts every payload that is not in the list. -/
  | allBut (rejected : List ByteString)
  /-- The open predicate number `k`. -/
  | free (k : Nat)
  deriving DecidableEq, Repr

/-- The predicates that `TextCheck.free` names: no law (R11, D12). -/
opaque Config.textPredicate : Nat → ByteString → Bool

/-- The value of a byte of storage that nothing has written since reset number `draw` (R170: one draw
per byte at reset, under no law). No law. -/
opaque Config.unspecifiedByte (draw : Nat) (sp : Space) (a : Nat) : Byte

/-- The parameters of R11. RX_TIMEOUT and BASE are not modelled (R11, R48). -/
structure Params where
  /-- C: the largest payload one frame carries. -/
  chunkSize : Nat
  /-- RETRY_LIMIT: sender timeouts per frame before abort. -/
  retryLimit : Nat
  /-- TIMEOUT_LIMIT: receiver timeouts before abort. -/
  timeoutLimit : Nat
  /-- DIGEST_FORMAT. -/
  digestFormat : DigestFormat
  /-- STALE_WINDOW: how far behind `expected_seq` a frame still counts as earlier. -/
  staleWindow : Nat
  /-- TEXT_OK. -/
  textCheck : TextCheck
  /-- RX_MSG_MAX: the longest received message the receiver decodes. -/
  rxMsgMax : Nat
  /-- IBUF_SIZE in bytes. -/
  ibufSize : Nat
  /-- OBUF_SIZE in bytes. -/
  obufSize : Nat
  /-- PMEM_SIZE in bytes. -/
  pmemSize : Nat
  deriving DecidableEq, Repr

/-- The defaults of R11. TEXT_OK has none; DESIGN CHOICE (log 2): always true, the neutral choice of D12. -/
def Params.default : Params where
  chunkSize := 1000
  retryLimit := 3
  timeoutLimit := 2
  digestFormat := .hex9
  staleWindow := 127
  textCheck := .allBut []
  rxMsgMax := 1010
  ibufSize := 4096
  obufSize := 4096
  pmemSize := 65536

end Sys2Proof
end

