-- ==== Sys2Proof/Syntax.lean ====
section
/-!
DEFINITION. The commands of the block: one constructor per row of spec/opcode_table.json (R75).
The only operand a command word carries is the SEQ field (R74); a command that ignores SEQ has no
operand here (log 15).
-/

namespace Sys2Proof

/-- The thirteen commands of R75. `seq` is the seq code of the command word's SEQ field. -/
inductive Instr where
  /-- CKSUM_COMPUTE (R95). -/
  | cksumCompute
  /-- CKSUM_VERIFY (R96). -/
  | cksumVerify
  /-- CHUNK_COUNT (R104). -/
  | chunkCount
  /-- CHUNK_GET (R105). -/
  | chunkGet
  /-- FRAME_ENCODE (R106); `seq` tags the frame. -/
  | frameEncode (seq : Byte)
  /-- FRAME_DECODE (R107). -/
  | frameDecode
  /-- TOKEN_CLASSIFY (R108). -/
  | tokenClassify
  /-- TOKEN_EMIT (R109). -/
  | tokenEmit
  /-- ACK_ENCODE (R110); `seq` is the code acknowledged. -/
  | ackEncode (seq : Byte)
  /-- SEQ_INC (R118); `seq` is the code to increment. -/
  | seqInc (seq : Byte)
  /-- SEQ_EARLIER (R119); `seq` is the current code. -/
  | seqEarlier (seq : Byte)
  /-- SND_START (R120). -/
  | sndStart
  /-- RCV_START (R133). -/
  | rcvStart
  deriving DecidableEq, Repr

end Sys2Proof
end

