-- ==== Sys2Proof/WellFormed.lean ====
section
/-!
DEFINITION. What is well formed: a configuration inside the legal ranges of R11, a command word that
R75 gives a meaning, and a command.
-/

namespace Sys2Proof

/-- 1 ≤ C ≤ min(IBUF_SIZE, OBUF_SIZE) − 10 (R11). -/
def Params.chunkSizeLegal (p : Params) : Bool :=
  1 ≤ p.chunkSize && p.chunkSize + 10 ≤ p.ibufSize && p.chunkSize + 10 ≤ p.obufSize

/-- RETRY_LIMIT in 1..255 (R11). -/
def Params.retryLimitLegal (p : Params) : Bool := 1 ≤ p.retryLimit && p.retryLimit ≤ 255

/-- TIMEOUT_LIMIT in 1..255 (R11). -/
def Params.timeoutLimitLegal (p : Params) : Bool := 1 ≤ p.timeoutLimit && p.timeoutLimit ≤ 255

/-- STALE_WINDOW in 1..255 (R11). -/
def Params.staleWindowLegal (p : Params) : Bool := 1 ≤ p.staleWindow && p.staleWindow ≤ 255

/-- RX_MSG_MAX in 10..2^32 − 1 (R11). -/
def Params.rxMsgMaxLegal (p : Params) : Bool := 10 ≤ p.rxMsgMax && p.rxMsgMax < 2 ^ 32

/-- IBUF_SIZE in 11..65536 (R11). -/
def Params.ibufSizeLegal (p : Params) : Bool := 11 ≤ p.ibufSize && p.ibufSize ≤ 65536

/-- OBUF_SIZE in 11..65536 (R11). -/
def Params.obufSizeLegal (p : Params) : Bool := 11 ≤ p.obufSize && p.obufSize ≤ 65536

/-- PMEM_SIZE in 1..2^31 (R11). -/
def Params.pmemSizeLegal (p : Params) : Bool := 1 ≤ p.pmemSize && p.pmemSize ≤ 2 ^ 31

/-- A configuration of this block (R11). Any other is refused by `step`. -/
def Params.legal (p : Params) : Bool :=
  p.chunkSizeLegal && p.retryLimitLegal && p.timeoutLimitLegal && p.staleWindowLegal &&
    p.rxMsgMaxLegal && p.ibufSizeLegal && p.obufSizeLegal && p.pmemSizeLegal

/-- The OP values that R75 defines, in the table's order. Every other value is reserved (R76). -/
def definedOps : List Nat :=
  [0x01, 0x02, 0x10, 0x11, 0x12, 0x13, 0x14, 0x15, 0x16, 0x20, 0x21, 0x30, 0x31]

/-- A command word that is not illegal by R76: RSVD is 0 and OP is in the table. -/
def commandWordLegal (w : Word) : Bool := w.toNat / 2 ^ 16 == 0 && definedOps.contains (w.toNat % 2 ^ 8)

/-- Every command is well formed: its only operand is a seq code, and every byte is the code of exactly
one seq value (R112). -/
def Instr.wellFormed : Instr → Bool
  | .cksumCompute => true
  | .cksumVerify => true
  | .chunkCount => true
  | .chunkGet => true
  | .frameEncode _ => true
  | .frameDecode => true
  | .tokenClassify => true
  | .tokenEmit => true
  | .ackEncode _ => true
  | .seqInc _ => true
  | .seqEarlier _ => true
  | .sndStart => true
  | .rcvStart => true

end Sys2Proof
end

