-- ==== Sys2Proof/Decode.lean ====
section
/-!
DEFINITION. The command word: its fields (R73), the total decoder (R75, R76, R77), and the encoder.
-/

namespace Sys2Proof

/-- OP = CMD[7:0] (R73). -/
def cmdOp (w : Word) : Byte := w.extractLsb' 0 8

/-- SEQ = CMD[15:8] (R73). -/
def cmdSeq (w : Word) : Byte := w.extractLsb' 8 8

/-- RSVD = CMD[31:16] (R73). -/
def cmdRsvd (w : Word) : BitVec 16 := w.extractLsb' 16 16

/-- Why a command word is illegal (R76). -/
inductive IllegalWord where
  /-- OP is not in the table of R75. -/
  | reservedOp (op : Byte)
  /-- RSVD is not 0. -/
  | reservedBits (rsvd : BitVec 16)
  deriving DecidableEq, Repr

/-- What a command word decodes to: one command, or illegal (R77). -/
inductive Decoded where
  | command (i : Instr)
  | illegal (why : IllegalWord)
  deriving DecidableEq, Repr

/-- The opcode map of R75: the command that OP selects, with SEQ as its operand where it reads it. -/
def decodeOp (op seq : Byte) : Option Instr :=
  match op.toNat with
  | 0x01 => some .cksumCompute
  | 0x02 => some .cksumVerify
  | 0x10 => some .chunkCount
  | 0x11 => some .chunkGet
  | 0x12 => some (.frameEncode seq)
  | 0x13 => some .frameDecode
  | 0x14 => some .tokenClassify
  | 0x15 => some .tokenEmit
  | 0x16 => some (.ackEncode seq)
  | 0x20 => some (.seqInc seq)
  | 0x21 => some (.seqEarlier seq)
  | 0x30 => some .sndStart
  | 0x31 => some .rcvStart
  | _ => none

/-- Decoding is total (R77): RSVD must be 0, and then OP alone selects the command (R75, R76). -/
def decode (w : Word) : Decoded :=
  if cmdRsvd w = 0 then
    match decodeOp (cmdOp w) (cmdSeq w) with
    | some i => .command i
    | none => .illegal (.reservedOp (cmdOp w))
  else .illegal (.reservedBits (cmdRsvd w))

/-- The OP value of a command (R75). -/
def opcode : Instr → Byte
  | .cksumCompute => 0x01
  | .cksumVerify => 0x02
  | .chunkCount => 0x10
  | .chunkGet => 0x11
  | .frameEncode _ => 0x12
  | .frameDecode => 0x13
  | .tokenClassify => 0x14
  | .tokenEmit => 0x15
  | .ackEncode _ => 0x16
  | .seqInc _ => 0x20
  | .seqEarlier _ => 0x21
  | .sndStart => 0x30
  | .rcvStart => 0x31

/-- The SEQ field of a command's word: its operand, and 0 where the command ignores SEQ, as the
assembler of R85 writes it. -/
def seqField : Instr → Byte
  | .cksumCompute => 0
  | .cksumVerify => 0
  | .chunkCount => 0
  | .chunkGet => 0
  | .frameEncode seq => seq
  | .frameDecode => 0
  | .tokenClassify => 0
  | .tokenEmit => 0
  | .ackEncode seq => seq
  | .seqInc seq => seq
  | .seqEarlier seq => seq
  | .sndStart => 0
  | .rcvStart => 0

/-- The CMD word of a command: `(SEQ << 8) | OP`, with RSVD 0 (R73, R85). -/
def encode (i : Instr) : Word := ((seqField i).setWidth 32 <<< 8) ||| (opcode i).setWidth 32

/-- The host's question: the command that the decoder reads from the low `nbits` bits of `w`, as one
32-bit command word (R73: every command is one word of 4 bytes). -/
def decodeTableWord (nbits w : Nat) : Option Instr :=
  match decode (BitVec.ofNat 32 (w % 2 ^ nbits)) with
  | .command i => some i
  | .illegal _ => none

end Sys2Proof
end

