-- ==== Sys2Proof/Machine/State.lean ====
section
/-!
DEFINITION. The state of the block as plain data (10_state.md, 20_memory.md), the reasons a step stops,
and reset (70_reset_and_hazards.md).
-/

namespace Sys2Proof.Machine

open Sys2Proof

/-- Storage as its written bytes: cells with strictly rising addresses. An address that is not listed
holds a byte nothing has written since reset, which reads as a free value (`State.byteAt`, R170, log 5). -/
abbrev Memory := List Host.Cell

/-- ERR[7:0] (R149). -/
inductive ErrCode where
  /-- E_NONE: the command succeeded. -/
  | eNone
  /-- E_ILLEGAL_OP: OP reserved or RSVD not 0. -/
  | eIllegalOp
  /-- E_BUSY: engine session active, or guarded write refused. -/
  | eBusy
  /-- E_LEN: a length exceeds its bound. -/
  | eLen
  /-- E_SHORT: input shorter than the format needs. -/
  | eShort
  /-- E_RANGE: an index or code out of range. -/
  | eRange
  deriving DecidableEq, Repr

/-- SND_STATUS.CAUSE and RCV_STATUS.CAUSE (R154). -/
inductive AbortCause where
  /-- No abort: session running, Done, or Off. -/
  | noAbort
  /-- A_RETRY_EXHAUSTED. -/
  | retryExhausted
  /-- A_TIMEOUT_EXHAUSTED. -/
  | timeoutExhausted
  /-- A_TRANSPORT_ERROR. -/
  | transportError
  deriving DecidableEq, Repr

/-- The sender's states (R38). -/
inductive SndState where
  | off | idle | awaitingAck | done | aborted
  deriving DecidableEq, Repr

/-- The receiver's states (R41). -/
inductive RcvState where
  | off | listening | done | aborted
  deriving DecidableEq, Repr

/-- The sender engine (R37). -/
structure Sender where
  state : SndState
  /-- Seq code of the frame in flight or next to build. -/
  expectedAck : Byte
  /-- Timeouts seen for the frame in flight. -/
  retryCount : Byte
  /-- The last transmission was a replay of `frame`. -/
  resendPending : Bool
  /-- PMEM offset of the chunk in flight or next to build. -/
  off : Word
  /-- Payload length captured from PLEN. -/
  plen : Word
  /-- The frame in flight, kept for retransmission (R39). -/
  frame : Memory
  /-- Length of the frame in bytes; 0 when none was built. -/
  flen : Word
  cause : AbortCause
  deriving DecidableEq, Repr

/-- The receiver engine (R40). -/
structure Receiver where
  state : RcvState
  /-- Seq code of the next new frame. -/
  expectedSeq : Byte
  /-- Timeouts since the last valid frame. -/
  timeoutCount : Byte
  /-- The current receive iteration delivered its payload. -/
  delivered : Bool
  /-- Payload bytes delivered this session, mod 2^32. -/
  dcount : Word
  cause : AbortCause
  deriving DecidableEq, Repr

/-- What an RX port presents at one read (R84): RX_KIND and RX_DATA. RX_LEN is the length of `data`
(log 4). -/
structure RxSignals where
  kind : BitVec 2
  data : ByteString
  deriving DecidableEq, Repr

/-- One host access (R49, R50). -/
inductive HostAccess where
  /-- A 32-bit read at an offset. -/
  | readWord (addr : Word)
  /-- A 32-bit write at an offset. -/
  | writeWord (addr : Word) (value : Word)
  /-- An 8-bit read at an offset. -/
  | readByte (addr : Word)
  /-- An 8-bit write at an offset. -/
  | writeByte (addr : Word) (value : Byte)
  /-- An access of any width in bits other than 8 and 32, read or write. -/
  | otherWidth (addr : Word) (bits : Nat) (isWrite : Bool)
  deriving DecidableEq, Repr

/-- What happens next (R63): one action is one atomic step of one agent. -/
inductive Action where
  /-- The host makes an access (R51). -/
  | host (acc : HostAccess)
  /-- The sender engine is given its turn (R121). -/
  | senderStep
  /-- The receiver engine is given its turn (R134). -/
  | receiverStep
  /-- The reset input is asserted (R169). -/
  | reset
  deriving DecidableEq, Repr

/-- The value a host read returned. -/
inductive ReadValue where
  | word (v : Word)
  | byte (v : Byte)
  deriving DecidableEq, Repr

/-- The whole state. CMD has no storage (R25); CFG_*, SND_* and RCV_* registers are views of `cfg`,
`snd` and `rcv` (R33 to R36). `draw`, `hostReads` and the three input lists are the model's own. -/
structure State where
  /-- The parameters of R11, which no step changes (R175). -/
  cfg : Params
  /-- ARG (R26). -/
  arg : Word
  /-- RESULT (R27). -/
  result : Word
  /-- ERR (R28). -/
  err : ErrCode
  /-- IN_LEN (R29). -/
  inLen : Word
  /-- OUT_LEN (R30). -/
  outLen : Word
  /-- PLEN (R31). -/
  plen : Word
  /-- The nine digest bytes that DGST0, DGST1 and DGST2 hold, g[0] first (R32). -/
  dgst : ByteString
  /-- IBUF (R47). -/
  ibuf : Memory
  /-- OBUF (R47). -/
  obuf : Memory
  /-- PMEM (R47). -/
  pmem : Memory
  /-- The sender engine (R37). -/
  snd : Sender
  /-- The receiver engine (R40). -/
  rcv : Receiver
  /-- Trace of messages the sender sent, oldest first (R45). -/
  sndTx : List ByteString
  /-- Trace of messages the receiver sent, oldest first (R45). -/
  rcvTx : List ByteString
  /-- Trace of payloads delivered, oldest first (R45). -/
  dlv : List ByteString
  /-- What SND_RX will present, one entry per read, next first (R70, R71). -/
  sndRx : List RxSignals
  /-- What RCV_RX will present, one entry per read, next first (R70, R71). -/
  rcvRx : List RxSignals
  /-- Who acts next: the interleaving of R63, next first (log 3). -/
  sched : List Action
  /-- Values that host reads returned, oldest first (log 7). -/
  hostReads : List ReadValue
  /-- How many resets were asserted: selects the draw of unspecified bytes (R170, log 6). -/
  draw : Nat
  deriving DecidableEq, Repr

/-- Nothing in the spec stops the block: a command error and a session abort are next states (R148,
R153, R155). So there is no fault, and no step answers one (safe; log 14). -/
inductive Fault where
  deriving DecidableEq, Repr

/-- Why the model gives a step no meaning. -/
inductive Refusal where
  /-- A command without a meaning yet; no arm of `exec` answers it. Safe. -/
  | notModelled (mnemonic : String)
  /-- Raised by a host access to the register window that is not an aligned 32-bit access: R49 says
  the model refuses it. Safe: the run stops where the block's behaviour is unspecified. -/
  | registerAccess
  /-- Raised by a host access of a width other than 8 bits to a buffer or reserved window: R50 says the
  model refuses it. Safe: the run stops where the block's behaviour is unspecified. -/
  | bufferAccess
  /-- Raised by every step under a configuration outside the legal ranges: R11 says the model refuses
  it. Safe: it is not a configuration of this block. -/
  | illegalConfig
  deriving DecidableEq, Repr

/-- The sender engine after reset (R37, R169). -/
def Sender.reset : Sender where
  state := .off
  expectedAck := 0x01
  retryCount := 0
  resendPending := false
  off := 0
  plen := 0
  frame := []
  flen := 0
  cause := .noAbort

/-- The receiver engine after reset (R40, R169). -/
def Receiver.reset : Receiver where
  state := .off
  expectedSeq := 0x01
  timeoutCount := 0
  delivered := false
  dcount := 0
  cause := .noAbort

/-- The state right after reset number `draw` of a block with parameters `cfg` (R169, R170), with no
input pending. -/
def State.resetWith (cfg : Params) (draw : Nat) : State where
  cfg := cfg
  arg := 0
  result := 0
  err := .eNone
  inLen := 0
  outLen := 0
  plen := 0
  dgst := [0, 0, 0, 0, 0, 0, 0, 0, 0]
  ibuf := []
  obuf := []
  pmem := []
  snd := Sender.reset
  rcv := Receiver.reset
  sndTx := []
  rcvTx := []
  dlv := []
  sndRx := []
  rcvRx := []
  sched := []
  hostReads := []
  draw := draw

/-- The state right after reset of a block with the default parameters (R169, R11; log 1). -/
def State.reset : State := State.resetWith Params.default 0

end Sys2Proof.Machine
end

