-- ==== Sys2Proof/Machine/Ops.lean ====
section
/-!
DEFINITION. The shared operations: storage, register updates, the two exceptional outcomes (a command
error R153, a session abort R155), the outputs of the block (R69, R72) and reset (R169).
-/

namespace Sys2Proof.Machine

open Sys2Proof

/-- The outcome of one step of this machine. -/
abbrev Result := Host.Outcome State Fault Refusal

/-! ### Storage -/

/-- The byte written at `x`, or nothing where no byte was written since reset. -/
def Memory.lookup : Memory → Nat → Option Byte
  | [], _ => none
  | (a, b) :: m, x => if x = a then some b else Memory.lookup m x

/-- Write one byte, keeping the cells in rising order. -/
def Memory.write : Memory → Nat → Byte → Memory
  | [], x, v => [(x, v)]
  | (a, b) :: m, x, v =>
    if x < a then (x, v) :: (a, b) :: m
    else if x = a then (x, v) :: m
    else (a, b) :: Memory.write m x v

/-- Write a byte string from address `x` up. -/
def Memory.writeBytes : Memory → Nat → ByteString → Memory
  | m, _, [] => m
  | m, x, v :: vs => Memory.writeBytes (Memory.write m x v) (x + 1) vs

/-- The canonical form: addresses strictly rising. (An unlisted address holds no written byte, so no
entry can equal what an unlisted address holds; log 5.) -/
def Memory.wf : Memory → Bool
  | [] => true
  | [_] => true
  | (a, _) :: (b, v) :: m => a < b && Memory.wf ((b, v) :: m)

/-- Every cell lies below `size`. -/
def Memory.within (m : Memory) (size : Nat) : Bool := m.all fun c => c.1 < size

/-- The size in bytes of each storage (R47). -/
def Params.size (p : Params) : Space → Nat
  | .ibuf => p.ibufSize
  | .obuf => p.obufSize
  | .pmem => p.pmemSize
  | .frame => p.chunkSize + 10

/-- The cells of one storage. -/
def State.mem (s : State) : Space → Memory
  | .ibuf => s.ibuf
  | .obuf => s.obuf
  | .pmem => s.pmem
  | .frame => s.snd.frame

/-- Replace the cells of one storage. -/
def State.setMem (s : State) (sp : Space) (m : Memory) : State :=
  match sp with
  | .ibuf => { s with ibuf := m }
  | .obuf => { s with obuf := m }
  | .pmem => { s with pmem := m }
  | .frame => { s with snd := { s.snd with frame := m } }

/-- Byte `a` of a storage: what was last written there, and a free value where nothing was written
since the last reset (R170). -/
def State.byteAt (s : State) (sp : Space) (a : Nat) : Byte :=
  match Memory.lookup (s.mem sp) a with
  | some b => b
  | none => Config.unspecifiedByte s.draw sp a

/-- MemRead(S, a, n) (R17). -/
def State.readBytes (s : State) (sp : Space) (a : Nat) : Nat → ByteString
  | 0 => []
  | n + 1 => s.byteAt sp a :: State.readBytes s sp (a + 1) n

/-- MemWrite(S, a, n, v) (R17), with n the length of v. -/
def State.writeBytes (s : State) (sp : Space) (a : Nat) (v : ByteString) : State :=
  s.setMem sp (Memory.writeBytes (s.mem sp) a v)

/-! ### Numbers and words -/

/-- ceil(a / b) (R17). -/
def ceilDiv (a b : Nat) : Nat := (a + b - 1) / b

/-- A natural number as a 32-bit register value (mod 2^32). -/
def toWord (n : Nat) : Word := BitVec.ofNat 32 n

/-- The little-endian packing of four bytes: `b0` in [7:0], `b3` in [31:24] (R32, R59). -/
def packWord (b0 b1 b2 b3 : Byte) : Word := b3 ++ b2 ++ b1 ++ b0

/-! ### Register updates of commands -/

/-- ERR <- e (R28). -/
def State.setErr (s : State) (e : ErrCode) : State := { s with err := e }

/-- RESULT <- v (R27). -/
def State.setResult (s : State) (v : Word) : State := { s with result := v }

/-- DGST <- g, nine bytes (R32). -/
def State.setDigest (s : State) (g : ByteString) : State := { s with dgst := g }

/-- What DGST0, DGST1 and DGST2 read (`k` = 0, 1, 2): byte i of the digest sits in DGST(i div 4) at
bits 8(i mod 4), and a byte past the ninth reads 0 (R32). -/
def State.digestWord (s : State) (k : Nat) : Word :=
  packWord (s.dgst.getD (4 * k) 0) (s.dgst.getD (4 * k + 1) 0) (s.dgst.getD (4 * k + 2) 0)
    (s.dgst.getD (4 * k + 3) 0)

/-- MemWrite(OBUF, 0, len, v); OUT_LEN <- len (R30, R54). -/
def State.output (s : State) (v : ByteString) : State :=
  { s.writeBytes .obuf 0 v with outLen := toWord v.length }

/-- `raise CmdError(e)`: the one way a command fails. ERR takes the code and nothing else changes; no
handler runs (R153). -/
def raise (e : ErrCode) (s : State) : Result := .next (s.setErr e)

/-- A command's success: RESULT <- v, ERR <- E_NONE (R27, R28). -/
def succeed (v : Word) (s : State) : Result := .next ((s.setResult v).setErr .eNone)

/-! ### The engines' outputs and aborts -/

/-- TX(SND_TX, m) (R69): always completes. -/
def State.sendSnd (s : State) (m : ByteString) : State := { s with sndTx := s.sndTx ++ [m] }

/-- TX(RCV_TX, m) (R69): always completes. -/
def State.sendRcv (s : State) (m : ByteString) : State := { s with rcvTx := s.rcvTx ++ [m] }

/-- DLV(p) (R72): the whole chunk in one step. -/
def State.deliver (s : State) (p : ByteString) : State := { s with dlv := s.dlv ++ [p] }

/-- abort(snd, cause) (R155): state and cause, no other field. -/
def abortSender (c : AbortCause) (s : State) : State :=
  { s with snd := { s.snd with state := .aborted, cause := c } }

/-- abort(rcv, cause) (R155): state and cause, no other field. -/
def abortReceiver (c : AbortCause) (s : State) : State :=
  { s with rcv := { s.rcv with state := .aborted, cause := c } }

/-- The sender is active: Idle or AwaitingAck (R31, R55). -/
def State.senderActive (s : State) : Bool :=
  match s.snd.state with
  | .off => false
  | .idle => true
  | .awaitingAck => true
  | .done => false
  | .aborted => false

/-! ### RX events -/

/-- RX_LEN: the length of the message bytes, 32 bits (R84). -/
def RxSignals.len (x : RxSignals) : Word := toWord x.data.length

/-- RX_LEN can carry the length: fewer than 2^32 message bytes (R84, log 4). -/
def RxSignals.legal (x : RxSignals) : Bool := x.data.length < 2 ^ 32

/-- What an engine's inbound port hands it (R70). -/
inductive RxEvent where
  | msg (m : ByteString)
  | timeout
  | error
  deriving DecidableEq, Repr

/-- The event that the port's signals present, if any (R84). -/
def RxSignals.event (x : RxSignals) : Option RxEvent :=
  match x.kind.toNat with
  | 0 => none
  | 1 => some (.msg x.data)
  | 2 => some .timeout
  | _ => some .error

/-- The signals that present an event (R84). -/
def RxEvent.signals : RxEvent → RxSignals
  | .msg m => { kind := 0b01, data := m }
  | .timeout => { kind := 0b10, data := [] }
  | .error => { kind := 0b11, data := [] }

/-! ### Reset -/

/-- Reset asserted (R169, R170): every register and engine field takes its reset value, the traces are
empty, storage is drawn anew. What the channel and the host will present is outside the block and
stays (log 9). -/
def State.assertReset (s : State) : State :=
  { State.resetWith s.cfg (s.draw + 1) with sndRx := s.sndRx, rcvRx := s.rcvRx, sched := s.sched }

end Sys2Proof.Machine
end

