-- ==== Sys2Proof/Machine/Flags.lean ====
section
/-!
DEFINITION. The block has no condition codes (R43). Its status is the codes and packed words of this
file: ERR (R149), SND_STATUS (R34), RCV_STATUS (R36), CFG_LIMITS (R33), and the verdict bits of RESULT.
-/

namespace Sys2Proof.Machine

open Sys2Proof

/-- The number in ERR[7:0] (R149). -/
def ErrCode.code : ErrCode → Byte
  | .eNone => 0x00
  | .eIllegalOp => 0x01
  | .eBusy => 0x02
  | .eLen => 0x03
  | .eShort => 0x04
  | .eRange => 0x05

/-- The number in CAUSE (R154). -/
def AbortCause.code : AbortCause → Byte
  | .noAbort => 0x00
  | .retryExhausted => 0x01
  | .timeoutExhausted => 0x02
  | .transportError => 0x03

/-- SND_STATUS.STATE (R34). -/
def SndState.code : SndState → BitVec 3
  | .off => 0
  | .idle => 1
  | .awaitingAck => 2
  | .done => 3
  | .aborted => 4

/-- RCV_STATUS.STATE (R36). -/
def RcvState.code : RcvState → BitVec 3
  | .off => 0
  | .listening => 1
  | .done => 2
  | .aborted => 3

/-- A boolean result in bit 0 of RESULT (R96, R119). -/
def verdictBit (b : Bool) : Word := if b then 1 else 0

/-- The shared layout of SND_STATUS and RCV_STATUS: CAUSE [31:24], a seq code [23:16], a counter [15:8],
zeros [7:4], a flag [3], STATE [2:0] (R34, R36). -/
def statusWord (state : BitVec 3) (flag : Bool) (count seq : Byte) (cause : AbortCause) : Word :=
  cause.code ++ seq ++ count ++ 0#4 ++ BitVec.ofBool flag ++ state

/-- SND_STATUS (R34). -/
def Sender.status (e : Sender) : Word :=
  statusWord e.state.code e.resendPending e.retryCount e.expectedAck e.cause

/-- RCV_STATUS (R36). -/
def Receiver.status (e : Receiver) : Word :=
  statusWord e.state.code e.delivered e.timeoutCount e.expectedSeq e.cause

/-- CFG_LIMITS[24] (R33). -/
def DigestFormat.code : DigestFormat → BitVec 1
  | .hex9 => 0
  | .bin9 => 1

/-- CFG_LIMITS: zeros [31:25], DIGEST_FORMAT [24], STALE_WINDOW [23:16], TIMEOUT_LIMIT [15:8],
RETRY_LIMIT [7:0] (R33). -/
def Params.limitsWord (p : Params) : Word :=
  0#7 ++ DigestFormat.code p.digestFormat ++ BitVec.ofNat 8 p.staleWindow ++ BitVec.ofNat 8 p.timeoutLimit
    ++ BitVec.ofNat 8 p.retryLimit

end Sys2Proof.Machine
end

