-- ==== Sys2Proof/Machine/Operands.lean ====
section
/-!
DEFINITION. The operands of commands (R74), the tests on them (R151), the seq codes (42_sequence.md),
and the text check (R11).
-/

namespace Sys2Proof.Machine

open Sys2Proof

/-- IN_LEN exceeds IBUF_SIZE: the E_LEN test of every command that reads IBUF (R151). -/
def State.inputTooLong (s : State) : Bool := s.cfg.ibufSize < s.inLen.toNat

/-- PLEN exceeds PMEM_SIZE: the E_LEN test of every command that reads PLEN (R151). -/
def State.payloadTooLong (s : State) : Bool := s.cfg.pmemSize < s.plen.toNat

/-- IBUF[0..IN_LEN) (R74). -/
def State.input (s : State) : ByteString := s.readBytes .ibuf 0 s.inLen.toNat

/-- PMEM[0..PLEN) (R74). -/
def State.payload (s : State) : ByteString := s.readBytes .pmem 0 s.plen.toNat

/-- ARG[7:0], a seq code (R74). -/
def State.argSeq (s : State) : Byte := s.arg.extractLsb' 0 8

/-- The seq value 1..256 that a code carries: 0x00 stands for 256 (R112). -/
def seqValue (c : Byte) : Nat := if c = 0 then 256 else c.toNat

/-- The code of a seq value: v mod 256 (R112). -/
def seqCode (v : Nat) : Byte := BitVec.ofNat 8 v

/-- The cyclic increment on codes (R113). -/
def seqInc (c : Byte) : Byte := c + 1

/-- `s` is one to STALE_WINDOW steps behind `c` around the cycle (R115). -/
def earlier (window : Nat) (s c : Byte) : Bool :=
  let d := (c - s).toNat
  1 ≤ d && d ≤ window

/-- TEXT_OK(p) (R11, R139). -/
def textOk (t : TextCheck) (p : ByteString) : Bool :=
  match t with
  | .allBut rejected => !rejected.contains p
  | .free k => Config.textPredicate k p

end Sys2Proof.Machine
end

