-- ==== Sys2Proof/Machine/Checksum.lean ====
section
/-!
DEFINITION. The checksum codec (40_checksum.md): byte sum, digest, CKSUM_COMPUTE, CKSUM_VERIFY.
-/

namespace Sys2Proof.Machine

open Sys2Proof

/-- The byte sum, without any modulus (R87). -/
def bsum : ByteString → Nat
  | [] => 0
  | b :: p => b.toNat + bsum p

/-- The ASCII code of a hexadecimal digit, lower case (R89). -/
def hexDigit (d : Nat) : Byte := if d < 10 then BitVec.ofNat 8 (0x30 + d) else BitVec.ofNat 8 (0x61 + (d - 10))

/-- fmt9(S): nine bytes, most significant first, of S mod 16^9 in hexadecimal digits (R89) or of
S mod 2^72 in binary (R90). -/
def fmt9 (f : DigestFormat) (n : Nat) : ByteString :=
  match f with
  | .hex9 => [8, 7, 6, 5, 4, 3, 2, 1, 0].map fun k => hexDigit (n % 2 ^ 36 / 16 ^ k % 16)
  | .bin9 => [8, 7, 6, 5, 4, 3, 2, 1, 0].map fun k => BitVec.ofNat 8 (n % 2 ^ 72 / 256 ^ k % 256)

/-- The digest of a byte string: always nine bytes (R91). -/
def digest (f : DigestFormat) (p : ByteString) : ByteString := fmt9 f (bsum p)

/-- The digest of `p` equals `d` byte for byte (R93). -/
def verify (f : DigestFormat) (p d : ByteString) : Bool := digest f p == d

/-- CKSUM_COMPUTE (R95). -/
def execCksumCompute (s : State) : Result :=
  if s.inputTooLong then raise .eLen s
  else
    let g := digest s.cfg.digestFormat s.input
    succeed (toWord (bsum s.input)) ((s.setDigest g).output g)

/-- CKSUM_VERIFY (R96): the input is `p || d` with d its last 9 bytes. -/
def execCksumVerify (s : State) : Result :=
  if s.inputTooLong then raise .eLen s
  else if s.inLen.toNat < 9 then raise .eShort s
  else
    let p := s.readBytes .ibuf 0 (s.inLen.toNat - 9)
    let d := s.readBytes .ibuf (s.inLen.toNat - 9) 9
    succeed (verdictBit (verify s.cfg.digestFormat p d)) (s.setDigest (digest s.cfg.digestFormat p))

end Sys2Proof.Machine
end

