-- ==== Sys2Proof/Machine/Frame.lean ====
section
/-!
DEFINITION. The frame codec (41_frame_codec.md): chunks, frames, control tokens, acks and their commands.
-/

namespace Sys2Proof.Machine

open Sys2Proof

/-- chunk(P, C) (R97), on a payload of at most `fuel` bytes: slices of C bytes in order, the last one
perhaps shorter, none empty. -/
def chunksFuel (c : Nat) : Nat → ByteString → List ByteString
  | 0, _ => []
  | _ + 1, [] => []
  | fuel + 1, b :: p => (b :: p).take c :: chunksFuel c fuel ((b :: p).drop c)

/-- chunk(P, C) (R97). -/
def chunks (c : Nat) (p : ByteString) : List ByteString := chunksFuel c p.length p

/-- encode(ch, c) (R99): chunk, digest, seq code. -/
def frameBytes (f : DigestFormat) (ch : ByteString) (seq : Byte) : ByteString := ch ++ digest f ch ++ [seq]

/-- What decode(w) returns (R100). -/
structure FrameFields where
  payload : ByteString
  checksum : ByteString
  seq : Byte
  deriving DecidableEq, Repr

/-- decode(w) (R79, R100): fails below 10 bytes, and does not check the checksum. -/
def frameFields (w : ByteString) : Option FrameFields :=
  if w.length < 10 then none
  else
    let n := w.length - 10
    some { payload := w.take n, checksum := (w.drop n).take 9, seq := w.getD (n + 9) 0 }

/-- The four control tokens (R80). -/
inductive Token where
  | done | timeout | unicodeError | mismatch
  deriving DecidableEq, Repr

/-- A token's code 1..4 (R80). -/
def Token.code : Token → Nat
  | .done => 1
  | .timeout => 2
  | .unicodeError => 3
  | .mismatch => 4

/-- A token's wire value: `DONE`, `TIMEOUT`, `Unicode`, `NotSame` (R80). -/
def Token.wire : Token → ByteString
  | .done => [0x44, 0x4F, 0x4E, 0x45]
  | .timeout => [0x54, 0x49, 0x4D, 0x45, 0x4F, 0x55, 0x54]
  | .unicodeError => [0x55, 0x6E, 0x69, 0x63, 0x6F, 0x64, 0x65]
  | .mismatch => [0x4E, 0x6F, 0x74, 0x53, 0x61, 0x6D, 0x65]

/-- The token with a code, compared whole (R109). -/
def tokenOfCode (k : Nat) : Option Token :=
  match k with
  | 1 => some .done
  | 2 => some .timeout
  | 3 => some .unicodeError
  | 4 => some .mismatch
  | _ => none

/-- is_control_token(m) (R102): the code of the token whose wire value is exactly `m`, else 0. -/
def tokenClass (m : ByteString) : Nat :=
  if m = Token.wire .done then 1
  else if m = Token.wire .timeout then 2
  else if m = Token.wire .unicodeError then 3
  else if m = Token.wire .mismatch then 4
  else 0

/-- ack_bytes(c) (R103). -/
def ackBytes (c : Byte) : ByteString := [c]

/-- is_ack_for(m, c): one byte, equal to c (R103). -/
def isAckFor (m : ByteString) (c : Byte) : Bool := m == ackBytes c

/-- CHUNK_COUNT (R104). -/
def execChunkCount (s : State) : Result :=
  if s.payloadTooLong then raise .eLen s
  else succeed (toWord (ceilDiv s.plen.toNat s.cfg.chunkSize)) s

/-- CHUNK_GET (R105). -/
def execChunkGet (s : State) : Result :=
  if s.payloadTooLong then raise .eLen s
  else if ceilDiv s.plen.toNat s.cfg.chunkSize ≤ s.arg.toNat then raise .eRange s
  else
    let start := s.arg.toNat * s.cfg.chunkSize
    let n := min s.cfg.chunkSize (s.plen.toNat - start)
    succeed (toWord n) (s.output (s.readBytes .pmem start n))

/-- FRAME_ENCODE (R106). -/
def execFrameEncode (seq : Byte) (s : State) : Result :=
  if s.inputTooLong then raise .eLen s
  else if s.cfg.chunkSize < s.inLen.toNat then raise .eLen s
  else
    let g := digest s.cfg.digestFormat s.input
    succeed (s.inLen + 10)
      ((s.output (frameBytes s.cfg.digestFormat s.input seq)).setDigest g)

/-- RESULT of FRAME_DECODE (R107): seq code in [7:0], checksum verdict in [8]. -/
def decodeResult (seq : Byte) (valid : Bool) : Word :=
  seq.setWidth 32 ||| (if valid then 1 <<< 8 else 0)

/-- FRAME_DECODE (R107): OBUF takes the payload, DGST the received checksum field. -/
def execFrameDecode (s : State) : Result :=
  if s.inputTooLong then raise .eLen s
  else
    match frameFields s.input with
    | none => raise .eShort s
    | some f =>
      if s.cfg.obufSize < f.payload.length then raise .eLen s
      else
        succeed (decodeResult f.seq (verify s.cfg.digestFormat f.payload f.checksum))
          ((s.output f.payload).setDigest f.checksum)

/-- TOKEN_CLASSIFY (R108). -/
def execTokenClassify (s : State) : Result :=
  if s.inputTooLong then raise .eLen s
  else succeed (toWord (tokenClass s.input)) s

/-- TOKEN_EMIT (R109): ARG is compared whole. -/
def execTokenEmit (s : State) : Result :=
  match tokenOfCode s.arg.toNat with
  | none => raise .eRange s
  | some t => succeed (toWord t.wire.length) (s.output t.wire)

/-- ACK_ENCODE (R110). -/
def execAckEncode (seq : Byte) (s : State) : Result :=
  succeed 1 (s.output (ackBytes seq))

end Sys2Proof.Machine
end

