-- ==== Sys2Proof/Machine/Receiver.lean ====
section
/-!
DEFINITION. The receiver engine (44_receiver.md): RCV_START and the engine's steps.
-/

namespace Sys2Proof.Machine

open Sys2Proof

/-- RCV_START (R133). The DLV trace is the output sink's record and is not cleared. -/
def execRcvStart (s : State) : Result :=
  match s.rcv.state with
  | .listening => raise .eBusy s
  | .off | .done | .aborted =>
    succeed 0
      { s with
        rcv :=
          { state := .listening, expectedSeq := 0x01, timeoutCount := 0, delivered := false, dcount := 0,
            cause := .noAbort } }

/-- `rcv.delivered <- 0`, which begins every receiver step (R135). -/
def rcvBegin (s : State) : State := { s with rcv := { s.rcv with delivered := false } }

/-- DONE received: finish, send nothing (R136). -/
def rcvDone (s : State) : State := { s with rcv := { s.rcv with state := .done } }

/-- Reply MISMATCH, change no counter (R137, R141). -/
def rcvMismatch (s : State) : State := s.sendRcv (Token.wire .mismatch)

/-- The expected new frame: deliver, acknowledge, advance (R138). -/
def rcvAccept (p : ByteString) (s : State) : State :=
  let c := s.rcv.expectedSeq
  let s1 :=
    if s.rcv.delivered then s
    else
      ({ s with
        rcv := { s.rcv with dcount := s.rcv.dcount + toWord p.length, delivered := true } }).deliver p
  let s2 := s1.sendRcv (ackBytes c)
  { s2 with rcv := { s2.rcv with expectedSeq := seqInc c, timeoutCount := 0 } }

/-- The expected frame with a payload that fails the text check: reply UNICODE_ERROR (R139). -/
def rcvUnicode (s : State) : State := s.sendRcv (Token.wire .unicodeError)

/-- A valid frame already acknowledged: acknowledge its own seq again (R140). -/
def rcvReack (seq : Byte) (s : State) : State :=
  let s1 := s.sendRcv (ackBytes seq)
  { s1 with rcv := { s1.rcv with timeoutCount := 0 } }

/-- Listening, a message: the tests of R134, rows 3 to 8, in their order. -/
def rcvMessage (m : ByteString) (s : State) : State :=
  if m = Token.wire .done then rcvDone s
  else
    match frameFields m with
    | none => rcvMismatch s
    | some f =>
      if s.cfg.rxMsgMax < m.length then rcvMismatch s
      else if !verify s.cfg.digestFormat f.payload f.checksum then rcvMismatch s
      else if f.seq = s.rcv.expectedSeq then
        if textOk s.cfg.textCheck f.payload then rcvAccept f.payload s else rcvUnicode s
      else if earlier s.cfg.staleWindow f.seq s.rcv.expectedSeq then rcvReack f.seq s
      else rcvMismatch s

/-- Listening, timeout: reply TIMEOUT, count, maybe abort (R142). -/
def rcvTimeout (s : State) : State :=
  let s1 := s.sendRcv (Token.wire .timeout)
  let n := s.rcv.timeoutCount + 1
  let s2 := { s1 with rcv := { s1.rcv with timeoutCount := n } }
  if n.toNat = s.cfg.timeoutLimit then abortReceiver .timeoutExhausted s2 else s2

/-- Listening, what one read of RCV_RX yields (R134). No event: keep waiting (R84). -/
def rcvEvent (e : Option RxEvent) (s : State) : State :=
  match e with
  | none => s
  | some (.msg m) => rcvMessage m (rcvBegin s)
  | some .timeout => rcvTimeout (rcvBegin s)
  | some .error => abortReceiver .transportError (rcvBegin s)

/-- The receiver's turn (R134). Outside Listening RCV_RX is not read (D35). -/
def receiverStep (s : State) : State :=
  match s.rcv.state with
  | .off => s
  | .listening =>
    match s.rcvRx with
    | [] => s
    | x :: rest => rcvEvent x.event { s with rcvRx := rest }
  | .done => s
  | .aborted => s

end Sys2Proof.Machine
end

