-- ==== Sys2Proof/Machine/Sender.lean ====
section
/-!
DEFINITION. The sender engine (43_sender.md): SND_START and the engine's steps.
-/

namespace Sys2Proof.Machine

open Sys2Proof

/-- SND_START (R120): every field but `snd.frame` takes its start value (R37). -/
def execSndStart (s : State) : Result :=
  if s.senderActive then raise .eBusy s
  else if s.payloadTooLong then raise .eLen s
  else
    succeed (toWord (ceilDiv s.plen.toNat s.cfg.chunkSize))
      { s with
        snd :=
          { s.snd with
            state := .idle, expectedAck := 0x01, retryCount := 0, resendPending := false, off := 0,
            plen := s.plen, flen := 0, cause := .noAbort } }

/-- The length of the chunk at `snd.off`: min(C, snd.plen − snd.off) (R122). -/
def State.chunkLen (s : State) : Nat := min s.cfg.chunkSize (s.snd.plen.toNat - s.snd.off.toNat)

/-- The chunk at `snd.off` (R122). -/
def State.chunkAtOff (s : State) : ByteString := s.readBytes .pmem s.snd.off.toNat s.chunkLen

/-- `snd.frame[0 .. snd.flen)` (R39). -/
def State.frameInFlight (s : State) : ByteString := s.readBytes .frame 0 s.snd.flen.toNat

/-- Idle, chunks remain: build the next frame, keep it, send it (R122). -/
def sndBuild (s : State) : State :=
  let f := frameBytes s.cfg.digestFormat s.chunkAtOff s.snd.expectedAck
  let s1 := s.writeBytes .frame 0 f
  let s2 := { s1 with
    snd := { s1.snd with flen := toWord (s.chunkLen + 10), resendPending := false, state := .awaitingAck } }
  s2.sendSnd s2.frameInFlight

/-- Idle, no chunk remains: send DONE and finish (R123). -/
def sndFinish (s : State) : State :=
  ({ s with snd := { s.snd with state := .done } }).sendSnd (Token.wire .done)

/-- AwaitingAck, matching ack: advance (R124). -/
def sndAdvance (s : State) : State :=
  { s with
    snd :=
      { s.snd with
        expectedAck := seqInc s.snd.expectedAck, retryCount := 0, resendPending := false,
        off := s.snd.off + (s.snd.flen - 10), state := .idle } }

/-- Send the kept frame again, unchanged, and set RESEND_PENDING (R125, R126). -/
def sndResend (s : State) : State :=
  ({ s with snd := { s.snd with resendPending := true } }).sendSnd s.frameInFlight

/-- AwaitingAck, a message: the matching ack advances (R124), any other message retransmits (R125). -/
def sndMessage (m : ByteString) (s : State) : State :=
  if isAckFor m s.snd.expectedAck then sndAdvance s else sndResend s

/-- AwaitingAck, timeout: count, then abort or retransmit (R126). -/
def sndTimeout (s : State) : State :=
  let n := s.snd.retryCount + 1
  let s1 := { s with snd := { s.snd with retryCount := n } }
  if n.toNat = s.cfg.retryLimit then abortSender .retryExhausted s1 else sndResend s1

/-- AwaitingAck, what one read of SND_RX yields (R121). No event: keep waiting (R84). -/
def sndEvent (e : Option RxEvent) (s : State) : State :=
  match e with
  | none => s
  | some (.msg m) => sndMessage m s
  | some .timeout => sndTimeout s
  | some .error => abortSender .transportError s

/-- The sender's turn (R121). Outside AwaitingAck SND_RX is not read (D35). Idle with
`snd.off > snd.plen` selects no row of R121; it is never reached (log 12). -/
def senderStep (s : State) : State :=
  match s.snd.state with
  | .off => s
  | .idle =>
    if s.snd.off.toNat < s.snd.plen.toNat then sndBuild s
    else if s.snd.off = s.snd.plen then sndFinish s
    else s
  | .awaitingAck =>
    match s.sndRx with
    | [] => s
    | x :: rest => sndEvent x.event { s with sndRx := rest }
  | .done => s
  | .aborted => s

end Sys2Proof.Machine
end

