-- ==== Sys2Proof/Machine/Sequence.lean ====
section
/-!
DEFINITION. The sequence commands (42_sequence.md): SEQ_INC and SEQ_EARLIER.
-/

namespace Sys2Proof.Machine

open Sys2Proof

/-- RESULT of SEQ_INC (R118): the code in [7:0], its value 1..256 in [16:8]. -/
def seqIncResult (n : Byte) : Word := n.setWidth 32 ||| (toWord (seqValue n) <<< 8)

/-- SEQ_INC (R118). -/
def execSeqInc (seq : Byte) (s : State) : Result := succeed (seqIncResult (seqInc seq)) s

/-- SEQ_EARLIER (R119): is the frame's code ARG[7:0] earlier than the current code SEQ. -/
def execSeqEarlier (seq : Byte) (s : State) : Result :=
  succeed (verdictBit (earlier s.cfg.staleWindow s.argSeq seq)) s

end Sys2Proof.Machine
end

