-- ==== Sys2Proof/Machine/Dispatch.lean ====
section
/-!
DEFINITION. One arm per command: each is one direct call of the command's meaning.
-/

namespace Sys2Proof.Machine

open Sys2Proof

def exec (i : Instr) (s : State) : Host.Outcome State Fault Refusal :=
  match i with
  | .cksumCompute => Sys2Proof.Machine.execCksumCompute s
  | .cksumVerify => Sys2Proof.Machine.execCksumVerify s
  | .chunkCount => Sys2Proof.Machine.execChunkCount s
  | .chunkGet => Sys2Proof.Machine.execChunkGet s
  | .frameEncode seq => Sys2Proof.Machine.execFrameEncode seq s
  | .frameDecode => Sys2Proof.Machine.execFrameDecode s
  | .tokenClassify => Sys2Proof.Machine.execTokenClassify s
  | .tokenEmit => Sys2Proof.Machine.execTokenEmit s
  | .ackEncode seq => Sys2Proof.Machine.execAckEncode seq s
  | .seqInc seq => Sys2Proof.Machine.execSeqInc seq s
  | .seqEarlier seq => Sys2Proof.Machine.execSeqEarlier seq s
  | .sndStart => Sys2Proof.Machine.execSndStart s
  | .rcvStart => Sys2Proof.Machine.execRcvStart s

end Sys2Proof.Machine
end

