-- ==== Sys2Proof/Machine/Bus.lean ====
section
/-!
DEFINITION. The host's side of the block: the register map (R23), the address map (R48), a command
written to CMD (R25, R76), host accesses (R49 to R55), and what one action does (R63).
-/

namespace Sys2Proof.Machine

open Sys2Proof

/-- The registers of R23. -/
inductive Reg where
  | cmd | arg | result | err | inLen | outLen | plen | dgst0 | dgst1 | dgst2 | cfgC | cfgLimits
  | sndStatus | sndOff | sndPlen | sndFlen | rcvStatus | rcvDcount | cfgIbuf | cfgObuf | cfgPmem | cfgRxmax
  deriving DecidableEq, Repr

/-- The register map of R23: the register at a byte offset of the window, if there is one. -/
def regAt (offset : Nat) : Option Reg :=
  match offset with
  | 0x00 => some .cmd
  | 0x04 => some .arg
  | 0x08 => some .result
  | 0x0C => some .err
  | 0x10 => some .inLen
  | 0x14 => some .outLen
  | 0x18 => some .plen
  | 0x1C => some .dgst0
  | 0x20 => some .dgst1
  | 0x24 => some .dgst2
  | 0x28 => some .cfgC
  | 0x2C => some .cfgLimits
  | 0x30 => some .sndStatus
  | 0x34 => some .sndOff
  | 0x38 => some .sndPlen
  | 0x3C => some .sndFlen
  | 0x40 => some .rcvStatus
  | 0x44 => some .rcvDcount
  | 0x48 => some .cfgIbuf
  | 0x4C => some .cfgObuf
  | 0x50 => some .cfgPmem
  | 0x54 => some .cfgRxmax
  | _ => none

/-- What a register reads (R24 to R36). CMD reads 0 (R24). -/
def State.readReg (s : State) : Reg → Word
  | .cmd => 0
  | .arg => s.arg
  | .result => s.result
  | .err => s.err.code.setWidth 32
  | .inLen => s.inLen
  | .outLen => s.outLen
  | .plen => s.plen
  | .dgst0 => s.digestWord 0
  | .dgst1 => s.digestWord 1
  | .dgst2 => s.digestWord 2
  | .cfgC => toWord s.cfg.chunkSize
  | .cfgLimits => Params.limitsWord s.cfg
  | .sndStatus => s.snd.status
  | .sndOff => s.snd.off
  | .sndPlen => s.snd.plen
  | .sndFlen => s.snd.flen
  | .rcvStatus => s.rcv.status
  | .rcvDcount => s.rcv.dcount
  | .cfgIbuf => toWord s.cfg.ibufSize
  | .cfgObuf => toWord s.cfg.obufSize
  | .cfgPmem => toWord s.cfg.pmemSize
  | .cfgRxmax => toWord s.cfg.rxMsgMax

/-- What the window reads at an offset: the register there, and 0 at a reserved offset (R24). -/
def State.readOffset (s : State) (offset : Nat) : Word :=
  match regAt offset with
  | some r => s.readReg r
  | none => 0

/-- A write of `w` to CMD: run the command, or raise E_ILLEGAL_OP before anything else (R25, R76, R150). -/
def runCommand (w : Word) (s : State) : Result :=
  match decode w with
  | .command i => exec i s
  | .illegal _ => raise .eIllegalOp s

/-- A write to PLEN: refused with E_BUSY while the sender is active (R31, R55). -/
def writePlen (v : Word) (s : State) : State :=
  if s.senderActive then s.setErr .eBusy else { s with plen := v }

/-- A 32-bit write to the register window. Read-only registers and reserved offsets ignore it (R24). -/
def writeOffset (offset : Nat) (v : Word) (s : State) : Result :=
  match regAt offset with
  | some .cmd => runCommand v s
  | some .arg => .next { s with arg := v }
  | some .inLen => .next { s with inLen := v }
  | some .plen => .next (writePlen v s)
  | some .result | some .err | some .outLen | some .dgst0 | some .dgst1 | some .dgst2 | some .cfgC
  | some .cfgLimits | some .sndStatus | some .sndOff | some .sndPlen | some .sndFlen | some .rcvStatus
  | some .rcvDcount | some .cfgIbuf | some .cfgObuf | some .cfgPmem | some .cfgRxmax | none => .next s

/-- The windows of R48. -/
inductive Window where
  /-- The register window, with the byte offset in it. -/
  | registers (offset : Nat)
  | reserved
  /-- A buffer window, with the byte index in it (perhaps past the buffer's size). -/
  | buffer (sp : Space) (index : Nat)
  deriving DecidableEq, Repr

/-- The host address map of R48. -/
def window (addr : Word) : Window :=
  let a := addr.toNat
  if a ≤ 0xFF then .registers a
  else if a ≤ 0xFFFF then .reserved
  else if a ≤ 0x1FFFF then .buffer .ibuf (a - 0x10000)
  else if a ≤ 0x2FFFF then .buffer .obuf (a - 0x20000)
  else if a ≤ 0x7FFFFFFF then .reserved
  else .buffer .pmem (a - 0x80000000)

/-- Hand a read value to the host. No read has a side effect on the block (R52). -/
def State.answer (s : State) (v : ReadValue) : State := { s with hostReads := s.hostReads ++ [v] }

/-- An 8-bit read of a buffer window: 0 at or past the buffer's size (R48). -/
def State.readIndex (s : State) (sp : Space) (i : Nat) : Byte :=
  if i < Params.size s.cfg sp then s.byteAt sp i else 0

/-- An 8-bit write to a buffer window. At or past the buffer's size it is ignored (R48); OBUF ignores it
(R53); PMEM refuses it with E_BUSY while the sender is active (R55). No window maps `snd.frame` (R47). -/
def writeIndex (sp : Space) (i : Nat) (v : Byte) (s : State) : State :=
  if i < Params.size s.cfg sp then
    match sp with
    | .ibuf => s.writeBytes .ibuf i [v]
    | .obuf => s
    | .pmem => if s.senderActive then s.setErr .eBusy else s.writeBytes .pmem i [v]
    | .frame => s
  else s

/-- A 32-bit read: aligned in the register window only (R49, R50). -/
def hostReadWord (addr : Word) (s : State) : Result :=
  match window addr with
  | .registers off => if off % 4 = 0 then .next (s.answer (.word (s.readOffset off))) else .refused .registerAccess
  | .reserved => .refused .bufferAccess
  | .buffer _ _ => .refused .bufferAccess

/-- A 32-bit write: aligned in the register window only (R49, R50). -/
def hostWriteWord (addr v : Word) (s : State) : Result :=
  match window addr with
  | .registers off => if off % 4 = 0 then writeOffset off v s else .refused .registerAccess
  | .reserved => .refused .bufferAccess
  | .buffer _ _ => .refused .bufferAccess

/-- An 8-bit read: buffer and reserved windows only (R49, R50). -/
def hostReadByte (addr : Word) (s : State) : Result :=
  match window addr with
  | .registers _ => .refused .registerAccess
  | .reserved => .next (s.answer (.byte 0))
  | .buffer sp i => .next (s.answer (.byte (s.readIndex sp i)))

/-- An 8-bit write: buffer and reserved windows only (R49, R50). -/
def hostWriteByte (addr : Word) (v : Byte) (s : State) : Result :=
  match window addr with
  | .registers _ => .refused .registerAccess
  | .reserved => .next s
  | .buffer sp i => .next (writeIndex sp i v s)

/-- An access of another width: refused in every window (R49, R50). -/
def hostOtherWidth (addr : Word) : Result :=
  match window addr with
  | .registers _ => .refused .registerAccess
  | .reserved => .refused .bufferAccess
  | .buffer _ _ => .refused .bufferAccess

/-- One host access, atomically (R51). -/
def hostAccess (acc : HostAccess) (s : State) : Result :=
  match acc with
  | .readWord a => hostReadWord a s
  | .writeWord a v => hostWriteWord a v s
  | .readByte a => hostReadByte a s
  | .writeByte a v => hostWriteByte a v s
  | .otherWidth a _ _ => hostOtherWidth a

/-- What one action does: one atomic step of one agent (R63). -/
def perform (act : Action) (s : State) : Result :=
  match act with
  | .host acc => hostAccess acc s
  | .senderStep => .next (senderStep s)
  | .receiverStep => .next (receiverStep s)
  | .reset => .next s.assertReset

/-- The next action of the schedule, or none: with nothing scheduled the block keeps all state (R168). -/
def performNext (s : State) : Result :=
  match s.sched with
  | [] => .next s
  | act :: rest => perform act { s with sched := rest }

/-- The action by which a command reaches the block: the host writes its word to CMD (R25). -/
def commandAction (w : Word) : Action := .host (.writeWord 0 w)

end Sys2Proof.Machine
end

