-- ==== Sys2Proof/Machine/Step.lean ====
section
/-!
DEFINITION. One step of the machine, and where it takes its next command word from.
-/

namespace Sys2Proof.Machine

open Sys2Proof

/-- One atomic step of one agent (R63), chosen by the schedule. A configuration outside the legal ranges
is refused (R11). -/
def step (s : State) : Host.Outcome State Fault Refusal :=
  if s.cfg.legal then performNext s else .refused .illegalConfig

/-- `s` with the host about to write the command word `w` to CMD: the block fetches nothing, a command
is decoded from the word written to CMD (R66). The rest of the schedule stays behind it (log 3). -/
def State.withFetchWord (s : State) (nbits w : Nat) : State :=
  { s with sched := commandAction (BitVec.ofNat 32 (w % 2 ^ nbits)) :: s.sched }

end Sys2Proof.Machine
end

