-- ==== Sys2Proof/Machine/Assembler.lean ====
section
/-!
DEFINITION. The host-program notation (R85, R86) as the actions it stands for. `step snd` is
`Action.senderStep`; an `ev` line names the next event of a port, which State holds in `sndRx` and `rcvRx`.
-/

namespace Sys2Proof.Machine

open Sys2Proof

/-- The offset of a register (R23). -/
def Reg.offset : Reg → Nat
  | .cmd => 0x00
  | .arg => 0x04
  | .result => 0x08
  | .err => 0x0C
  | .inLen => 0x10
  | .outLen => 0x14
  | .plen => 0x18
  | .dgst0 => 0x1C
  | .dgst1 => 0x20
  | .dgst2 => 0x24
  | .cfgC => 0x28
  | .cfgLimits => 0x2C
  | .sndStatus => 0x30
  | .sndOff => 0x34
  | .sndPlen => 0x38
  | .sndFlen => 0x3C
  | .rcvStatus => 0x40
  | .rcvDcount => 0x44
  | .cfgIbuf => 0x48
  | .cfgObuf => 0x4C
  | .cfgPmem => 0x50
  | .cfgRxmax => 0x54

/-- The offset at which a buffer's window begins (R48); `snd.frame` has no window (R47). -/
def windowBase : Space → Option Nat
  | .ibuf => some 0x10000
  | .obuf => some 0x20000
  | .pmem => some 0x80000000
  | .frame => none

/-- The host address of byte `i` of a buffer (R48). -/
def byteAddress (sp : Space) (i : Nat) : Option Word := (windowBase sp).map fun b => toWord (b + i)

/-- `wr REG, v` (R85). -/
def asmWr (r : Reg) (v : Word) : List Action := [.host (.writeWord (toWord r.offset) v)]

/-- `rd REG` (R85). -/
def asmRd (r : Reg) : List Action := [.host (.readWord (toWord r.offset))]

/-- `wrb SPACE, i, b"..."`: one byte access per byte (R85). -/
def asmWrb (sp : Space) (i : Nat) : ByteString → List Action
  | [] => []
  | b :: bs =>
    match byteAddress sp i with
    | some a => .host (.writeByte a b) :: asmWrb sp (i + 1) bs
    | none => asmWrb sp (i + 1) bs

/-- `rdb SPACE, i, n` (R85). -/
def asmRdb (sp : Space) (i : Nat) : Nat → List Action
  | 0 => []
  | n + 1 =>
    match byteAddress sp i with
    | some a => .host (.readByte a) :: asmRdb sp (i + 1) n
    | none => asmRdb sp (i + 1) n

/-- `MNEMONIC` and `MNEMONIC seq=v`: a write of the command's word to CMD (R85). -/
def asmCommand (i : Instr) : List Action := [commandAction (encode i)]

/-- `LOAD_IN b"..."` (R86). -/
def asmLoadIn (v : ByteString) : List Action := asmWrb .ibuf 0 v ++ asmWr .inLen (toWord v.length)

/-- `LOAD_PAYLOAD b"..."` (R86). -/
def asmLoadPayload (v : ByteString) : List Action := asmWrb .pmem 0 v ++ asmWr .plen (toWord v.length)

/-- `READ_OUT` (R86), where OUT_LEN reads `n`. -/
def asmReadOut (n : Nat) : List Action := asmRd .outLen ++ asmRdb .obuf 0 n

/-- `READ_DGST` (R86). -/
def asmReadDgst : List Action := asmRd .dgst0 ++ asmRd .dgst1 ++ asmRd .dgst2

end Sys2Proof.Machine
end

