-- ==== Sys2Proof/Safety.lean ====
section
/-!
DEFINITION. What a good state of the block is (`Inv`), and the words the statements use: how a command's
output shows in OBUF, how a session has ended, and the fault-free channel of a session.
-/

namespace Sys2Proof.Machine

open Sys2Proof

/-! ### The invariant -/

/-- Each storage is in canonical form and lies inside its size (R47). -/
def State.storageOk (s : State) : Prop :=
  ∀ sp, Memory.wf (s.mem sp) = true ∧ Memory.within (s.mem sp) (Params.size s.cfg sp) = true

/-- OUT_LEN ≤ OBUF_SIZE (R30), and DGST holds nine bytes (R32). -/
def State.outputOk (s : State) : Prop := s.outLen.toNat ≤ s.cfg.obufSize ∧ s.dgst.length = 9

/-- A running sender session: the payload fits PMEM, `snd.off` is a chunk boundary at or before its
end (R22, R122), no cause is set (R154), and the seq code counts the acknowledged chunks (R130). -/
def State.sessionOk (s : State) : Prop :=
  s.snd.plen.toNat ≤ s.cfg.pmemSize ∧ s.snd.off.toNat ≤ s.snd.plen.toNat ∧
    (s.snd.off.toNat % s.cfg.chunkSize = 0 ∨ s.snd.off = s.snd.plen) ∧
    s.snd.cause = .noAbort ∧
    s.snd.expectedAck = seqCode (ceilDiv s.snd.off.toNat s.cfg.chunkSize + 1)

/-- A frame in flight: `snd.frame` holds the encoding of the chunk at `snd.off` under the expected seq
code, so every retransmission is that frame (R39, R122), and the limit was not reached (R126). -/
def State.flightOk (s : State) : Prop :=
  s.snd.off.toNat < s.snd.plen.toNat ∧ s.snd.flen.toNat = s.chunkLen + 10 ∧
    s.frameInFlight = frameBytes s.cfg.digestFormat s.chunkAtOff s.snd.expectedAck ∧
    s.snd.retryCount.toNat < s.cfg.retryLimit

/-- The sender engine, state by state (R37, R38, R126, R154). -/
def State.senderOk (s : State) : Prop :=
  match s.snd.state with
  | .off =>
    s.snd.expectedAck = 0x01 ∧ s.snd.retryCount = 0 ∧ s.snd.resendPending = false ∧ s.snd.off = 0 ∧
      s.snd.plen = 0 ∧ s.snd.flen = 0 ∧ s.snd.cause = .noAbort
  | .idle => s.sessionOk ∧ s.snd.retryCount = 0 ∧ s.snd.resendPending = false
  | .awaitingAck => s.sessionOk ∧ s.flightOk
  | .done => s.snd.off = s.snd.plen ∧ s.snd.cause = .noAbort ∧ s.snd.retryCount = 0
  | .aborted =>
    s.snd.off.toNat < s.snd.plen.toNat ∧
      ((s.snd.cause = .retryExhausted ∧ s.snd.retryCount.toNat = s.cfg.retryLimit) ∨
        (s.snd.cause = .transportError ∧ s.snd.retryCount.toNat < s.cfg.retryLimit))

/-- The receiver engine, state by state (R40, R41, R135, R142, R154). -/
def State.receiverOk (s : State) : Prop :=
  match s.rcv.state with
  | .off =>
    s.rcv.expectedSeq = 0x01 ∧ s.rcv.timeoutCount = 0 ∧ s.rcv.delivered = false ∧ s.rcv.dcount = 0 ∧
      s.rcv.cause = .noAbort
  | .listening =>
    s.rcv.timeoutCount.toNat < s.cfg.timeoutLimit ∧ s.rcv.cause = .noAbort ∧
      (s.rcv.delivered = true → s.rcv.timeoutCount = 0)
  | .done =>
    s.rcv.timeoutCount.toNat < s.cfg.timeoutLimit ∧ s.rcv.cause = .noAbort ∧ s.rcv.delivered = false
  | .aborted =>
    s.rcv.delivered = false ∧
      ((s.rcv.cause = .timeoutExhausted ∧ s.rcv.timeoutCount.toNat = s.cfg.timeoutLimit) ∨
        (s.rcv.cause = .transportError ∧ s.rcv.timeoutCount.toNat < s.cfg.timeoutLimit))

/-- A good state. `State.reset` is one and every step keeps it. -/
def Inv (s : State) : Prop :=
  s.cfg.legal = true ∧ s.storageOk ∧ s.outputOk ∧ s.senderOk ∧ s.receiverOk

/-! ### Words of the statements -/

/-- The sender session has ended (R184). -/
def State.senderEnded (s : State) : Prop := s.snd.state = .done ∨ s.snd.state = .aborted

/-- The receiver session has ended (R184). -/
def State.receiverEnded (s : State) : Prop := s.rcv.state = .done ∨ s.rcv.state = .aborted

/-- OBUF of `t` is OBUF of `s` with `v` written from byte 0 (R54). -/
def obufIs (s t : State) (v : ByteString) : Prop :=
  ∀ a, t.byteAt .obuf a = v.getD a (s.byteAt .obuf a)

/-- The command words that select a command: OP fixed, any SEQ, RSVD 0 (R73, R75). -/
def selectedBy (op : Byte) (i : Byte → Instr) : Prop :=
  ∀ seq : Byte, decode (seq.setWidth 32 <<< 8 ||| op.setWidth 32) = .command (i seq)

/-- The commands that read the SEQ field (R73). -/
def readsSeq : Instr → Bool
  | .cksumCompute => false
  | .cksumVerify => false
  | .chunkCount => false
  | .chunkGet => false
  | .frameEncode _ => true
  | .frameDecode => false
  | .tokenClassify => false
  | .tokenEmit => false
  | .ackEncode _ => true
  | .seqInc _ => true
  | .seqEarlier _ => true
  | .sndStart => false
  | .rcvStart => false

/-! ### The fault-free session -/

/-- The frames of a list of chunks, tagged from seq code `c` on. -/
def sessionFrames (f : DigestFormat) : Byte → List ByteString → List ByteString
  | _, [] => []
  | c, ch :: rest => frameBytes f ch c :: sessionFrames f (seqInc c) rest

/-- The acks of `n` frames, from seq code `c` on. -/
def sessionAcks : Byte → Nat → List ByteString
  | _, 0 => []
  | c, n + 1 => ackBytes c :: sessionAcks (seqInc c) n

/-- One frame's exchange: the sender sends, the receiver answers, the sender reads the ack. -/
def exchange : List Action := [.senderStep, .receiverStep, .senderStep]

/-- The turns of a session of `n` frames: `n` exchanges, then DONE is sent and received. -/
def sessionTurns : Nat → List Action
  | 0 => [.senderStep, .receiverStep]
  | n + 1 => exchange ++ sessionTurns n

end Sys2Proof.Machine
end

