-- ==== Sys2Proof/Certificates/Slice0/Obligations.lean ====
section
/-!
DEFINITION. The statements for the provers. A statement about an engine's turn speaks of `senderStep`
or `receiverStep`; `StepPerformsScheduledAction` says that `step` runs exactly these.
-/

open Sys2Proof Sys2Proof.Machine

/-! ### Encoding and dispatch -/

/-- Decoding the encoding of a command gives the command back, with every operand at every value. -/
def Obligations.DecodeEncodeRoundTrip : Prop :=
  ∀ i : Instr, i.wellFormed = true → decode (encode i) = .command i

/-- R77: every word is either one command of R75's table or illegal, and which one is decided by the
table: OP defined and RSVD zero. -/
def Obligations.DecodeTotalByTable : Prop :=
  ∀ w : Word,
    (commandWordLegal w = true ↔ ∃ i, decode w = .command i) ∧
      (commandWordLegal w = false ↔ ∃ why, decode w = .illegal why)

/-- A word decodes to a command exactly when the word under the mask 0xFFFF_00FF is its OP, and its SEQ
field is the operand where the command reads SEQ (R73, R75). -/
def Obligations.CommandSelectedUnderMask : Prop :=
  ∀ (w : Word) (i : Instr),
    decode w = .command i ↔
      w &&& 0xFFFF00FF = (opcode i).setWidth 32 ∧ (readsSeq i = true → cmdSeq w = seqField i)

/-- Words written out from the spec's encoding decode to the commands they stand for. -/
def Obligations.CommandWordsDecode : Prop :=
  decode 0x0000FF01 = .command .cksumCompute ∧ decode 0x00000112 = .command (.frameEncode 0x01) ∧
    decode 0x00000121 = .command (.seqEarlier 0x01) ∧ decode 0x00000031 = .command .rcvStart ∧
    decode 0x00010001 = .illegal (.reservedBits 1) ∧ decode 0x00000017 = .illegal (.reservedOp 0x17)

/-- A step whose next action writes a command's word to CMD is `exec` of that command, with the action
taken off the schedule and nothing else added; `withFetchWord` sets up exactly such a step. -/
def Obligations.StepRunsDecodedCommand : Prop :=
  ∀ (s : State) (w : Word) (i : Instr), s.cfg.legal = true → decode w = .command i →
    i.wellFormed = true →
    (∀ rest, s.sched = .host (.writeWord 0 w) :: rest → step s = exec i { s with sched := rest }) ∧
      step (s.withFetchWord 32 w.toNat) = exec i s

/-- R150: writing a word to CMD that R76 calls illegal sets ERR to E_ILLEGAL_OP (0x01) and changes nothing
else. -/
def Obligations.IllegalWordOnlySetsErr : Prop :=
  ∀ (s : State) (w : Word) (rest : List Action), s.cfg.legal = true →
    s.sched = .host (.writeWord 0 w) :: rest → commandWordLegal w = false →
    step s = .next { s with sched := rest, err := .eIllegalOp } ∧ ErrCode.eIllegalOp.code = 0x01

/-- One step takes one action off the schedule and performs it; with nothing scheduled it keeps all
state. The schedule is the model's form of the interleaving of R63 (log 3, log 8). -/
def Obligations.StepPerformsScheduledAction : Prop :=
  ∀ s : State, s.cfg.legal = true →
    (s.sched = [] → step s = .next s) ∧
      ∀ rest,
        (s.sched = .senderStep :: rest → step s = .next (senderStep { s with sched := rest })) ∧
        (s.sched = .receiverStep :: rest → step s = .next (receiverStep { s with sched := rest })) ∧
        ∀ acc, s.sched = .host acc :: rest → step s = hostAccess acc { s with sched := rest }

/-- The legal ranges of R11 number by number; a step under any other configuration is refused, and the
configuration registers read the parameters (R33). -/
def Obligations.ConfigurationRangesAndRegisters : Prop :=
  (∀ p : Params, p.legal = true ↔
    (1 ≤ p.chunkSize ∧ p.chunkSize + 10 ≤ min p.ibufSize p.obufSize) ∧
      (1 ≤ p.retryLimit ∧ p.retryLimit ≤ 255) ∧ (1 ≤ p.timeoutLimit ∧ p.timeoutLimit ≤ 255) ∧
      (1 ≤ p.staleWindow ∧ p.staleWindow ≤ 255) ∧ (10 ≤ p.rxMsgMax ∧ p.rxMsgMax ≤ 2 ^ 32 - 1) ∧
      (11 ≤ p.ibufSize ∧ p.ibufSize ≤ 65536) ∧ (11 ≤ p.obufSize ∧ p.obufSize ≤ 65536) ∧
      (1 ≤ p.pmemSize ∧ p.pmemSize ≤ 2 ^ 31)) ∧
  (∀ s : State, s.cfg.legal = false → step s = .refused .illegalConfig) ∧
  ∀ s : State, s.cfg.legal = true →
    (s.readReg .cfgC).toNat = s.cfg.chunkSize ∧ (s.readReg .cfgIbuf).toNat = s.cfg.ibufSize ∧
      (s.readReg .cfgObuf).toNat = s.cfg.obufSize ∧ (s.readReg .cfgPmem).toNat = s.cfg.pmemSize ∧
      (s.readReg .cfgRxmax).toNat = s.cfg.rxMsgMax ∧
      (s.readReg .cfgLimits).toNat =
        s.cfg.retryLimit + s.cfg.timeoutLimit * 2 ^ 8 + s.cfg.staleWindow * 2 ^ 16 +
          (match s.cfg.digestFormat with | .hex9 => 0 | .bin9 => 1) * 2 ^ 24

/-! ### Commands: every form, its errors, its next state, and what it leaves alone -/

/-- R95: CKSUM_COMPUTE. -/
def Obligations.CksumComputeWritesDigestAndSum : Prop :=
  selectedBy 0x01 (fun _ => .cksumCompute) ∧
  ∀ s : State,
    (s.cfg.ibufSize < s.inLen.toNat → exec .cksumCompute s = .next { s with err := .eLen }) ∧
    (s.inLen.toNat ≤ s.cfg.ibufSize →
      let p := s.readBytes .ibuf 0 s.inLen.toNat
      let g := digest s.cfg.digestFormat p
      ∃ m : Memory,
        let t := { s with
          dgst := g, obuf := m, outLen := 9, result := BitVec.ofNat 32 (bsum p), err := .eNone }
        exec .cksumCompute s = .next t ∧ obufIs s t g)

/-- R96: CKSUM_VERIFY. -/
def Obligations.CksumVerifyComparesDigest : Prop :=
  selectedBy 0x02 (fun _ => .cksumVerify) ∧
  ∀ s : State,
    (s.cfg.ibufSize < s.inLen.toNat → exec .cksumVerify s = .next { s with err := .eLen }) ∧
    (s.inLen.toNat ≤ s.cfg.ibufSize → s.inLen.toNat < 9 →
      exec .cksumVerify s = .next { s with err := .eShort }) ∧
    (s.inLen.toNat ≤ s.cfg.ibufSize → 9 ≤ s.inLen.toNat →
      let p := s.readBytes .ibuf 0 (s.inLen.toNat - 9)
      let d := s.readBytes .ibuf (s.inLen.toNat - 9) 9
      let g := digest s.cfg.digestFormat p
      exec .cksumVerify s = .next { s with dgst := g, result := if g = d then 1 else 0, err := .eNone })

/-- R104: CHUNK_COUNT. -/
def Obligations.ChunkCountIsCeiling : Prop :=
  selectedBy 0x10 (fun _ => .chunkCount) ∧
  ∀ s : State,
    (s.cfg.pmemSize < s.plen.toNat → exec .chunkCount s = .next { s with err := .eLen }) ∧
    (s.plen.toNat ≤ s.cfg.pmemSize →
      exec .chunkCount s =
        .next { s with result := BitVec.ofNat 32 (ceilDiv s.plen.toNat s.cfg.chunkSize), err := .eNone })

/-- R105: CHUNK_GET. What it writes is chunk ARG of the payload, in the sense of R97. -/
def Obligations.ChunkGetCopiesChunk : Prop :=
  selectedBy 0x11 (fun _ => .chunkGet) ∧
  ∀ s : State, 1 ≤ s.cfg.chunkSize →
    (s.cfg.pmemSize < s.plen.toNat → exec .chunkGet s = .next { s with err := .eLen }) ∧
    (s.plen.toNat ≤ s.cfg.pmemSize → ceilDiv s.plen.toNat s.cfg.chunkSize ≤ s.arg.toNat →
      exec .chunkGet s = .next { s with err := .eRange }) ∧
    (s.plen.toNat ≤ s.cfg.pmemSize → s.arg.toNat < ceilDiv s.plen.toNat s.cfg.chunkSize →
      let start := s.arg.toNat * s.cfg.chunkSize
      let n := min s.cfg.chunkSize (s.plen.toNat - start)
      let ch := s.readBytes .pmem start n
      start < s.plen.toNat ∧
        (chunks s.cfg.chunkSize (s.readBytes .pmem 0 s.plen.toNat))[s.arg.toNat]? = some ch ∧
        ∃ m : Memory,
          let t := { s with
            obuf := m, outLen := BitVec.ofNat 32 n, result := BitVec.ofNat 32 n, err := .eNone }
          exec .chunkGet s = .next t ∧ obufIs s t ch)

/-- R106: FRAME_ENCODE. -/
def Obligations.FrameEncodeBuildsFrame : Prop :=
  selectedBy 0x12 (fun seq => .frameEncode seq) ∧
  ∀ (seq : Byte) (s : State),
    (s.cfg.ibufSize < s.inLen.toNat ∨ s.cfg.chunkSize < s.inLen.toNat →
      exec (.frameEncode seq) s = .next { s with err := .eLen }) ∧
    (s.inLen.toNat ≤ s.cfg.ibufSize → s.inLen.toNat ≤ s.cfg.chunkSize →
      let ch := s.readBytes .ibuf 0 s.inLen.toNat
      let g := digest s.cfg.digestFormat ch
      let n := s.inLen.toNat + 10
      ∃ m : Memory,
        let t := { s with
          dgst := g, obuf := m, outLen := BitVec.ofNat 32 n, result := BitVec.ofNat 32 n, err := .eNone }
        exec (.frameEncode seq) s = .next t ∧ obufIs s t (ch ++ g ++ [seq]))

/-- R107: FRAME_DECODE. -/
def Obligations.FrameDecodeSplitsFrame : Prop :=
  selectedBy 0x13 (fun _ => .frameDecode) ∧
  ∀ s : State,
    (s.cfg.ibufSize < s.inLen.toNat → exec .frameDecode s = .next { s with err := .eLen }) ∧
    (s.inLen.toNat ≤ s.cfg.ibufSize → s.inLen.toNat < 10 →
      exec .frameDecode s = .next { s with err := .eShort }) ∧
    (s.inLen.toNat ≤ s.cfg.ibufSize → 10 ≤ s.inLen.toNat → s.cfg.obufSize < s.inLen.toNat - 10 →
      exec .frameDecode s = .next { s with err := .eLen }) ∧
    (s.inLen.toNat ≤ s.cfg.ibufSize → 10 ≤ s.inLen.toNat → s.inLen.toNat - 10 ≤ s.cfg.obufSize →
      let n := s.inLen.toNat - 10
      let p := s.readBytes .ibuf 0 n
      let d := s.readBytes .ibuf n 9
      let seq := s.byteAt .ibuf (n + 9)
      ∃ m : Memory,
        let t := { s with
          dgst := d, obuf := m, outLen := BitVec.ofNat 32 n, err := .eNone,
          result := BitVec.ofNat 32
            (seq.toNat + (if digest s.cfg.digestFormat p = d then 2 ^ 8 else 0)) }
        exec .frameDecode s = .next t ∧ obufIs s t p)

/-- R108: TOKEN_CLASSIFY. -/
def Obligations.TokenClassifyGivesCode : Prop :=
  selectedBy 0x14 (fun _ => .tokenClassify) ∧
  ∀ s : State,
    (s.cfg.ibufSize < s.inLen.toNat → exec .tokenClassify s = .next { s with err := .eLen }) ∧
    (s.inLen.toNat ≤ s.cfg.ibufSize →
      exec .tokenClassify s =
        .next { s with
          result := BitVec.ofNat 32 (tokenClass (s.readBytes .ibuf 0 s.inLen.toNat)), err := .eNone })

/-- R109: TOKEN_EMIT. -/
def Obligations.TokenEmitWritesToken : Prop :=
  selectedBy 0x15 (fun _ => .tokenEmit) ∧
  ∀ s : State,
    (s.arg.toNat < 1 ∨ 4 < s.arg.toNat → exec .tokenEmit s = .next { s with err := .eRange }) ∧
    ∀ tok : Token, s.arg.toNat = tok.code →
      let n := BitVec.ofNat 32 tok.wire.length
      ∃ m : Memory,
        let t := { s with obuf := m, outLen := n, result := n, err := .eNone }
        exec .tokenEmit s = .next t ∧ obufIs s t tok.wire

/-- R110: ACK_ENCODE. -/
def Obligations.AckEncodeWritesOneByte : Prop :=
  selectedBy 0x16 (fun seq => .ackEncode seq) ∧
  ∀ (seq : Byte) (s : State),
    ∃ m : Memory,
      let t := { s with obuf := m, outLen := 1, result := 1, err := .eNone }
      exec (.ackEncode seq) s = .next t ∧ obufIs s t [seq]

/-- R118: SEQ_INC. -/
def Obligations.SeqIncGivesCodeAndValue : Prop :=
  selectedBy 0x20 (fun seq => .seqInc seq) ∧
  ∀ (seq : Byte) (s : State),
    let n : Byte := BitVec.ofNat 8 ((seq.toNat + 1) % 256)
    exec (.seqInc seq) s =
      .next { s with result := BitVec.ofNat 32 (n.toNat + seqValue n * 2 ^ 8), err := .eNone }

/-- R119: SEQ_EARLIER. -/
def Obligations.SeqEarlierGivesVerdict : Prop :=
  selectedBy 0x21 (fun seq => .seqEarlier seq) ∧
  ∀ (seq : Byte) (s : State),
    let d := (seq.toNat + 256 - s.arg.toNat % 256) % 256
    exec (.seqEarlier seq) s =
      .next { s with result := if 1 ≤ d ∧ d ≤ s.cfg.staleWindow then 1 else 0, err := .eNone }

/-- R120: SND_START. -/
def Obligations.SndStartOpensSession : Prop :=
  selectedBy 0x30 (fun _ => .sndStart) ∧
  ∀ s : State,
    (s.snd.state = .idle ∨ s.snd.state = .awaitingAck →
      exec .sndStart s = .next { s with err := .eBusy }) ∧
    (s.snd.state = .off ∨ s.snd.state = .done ∨ s.snd.state = .aborted →
      (s.cfg.pmemSize < s.plen.toNat → exec .sndStart s = .next { s with err := .eLen }) ∧
      (s.plen.toNat ≤ s.cfg.pmemSize →
        exec .sndStart s =
          .next { s with
            snd :=
              { state := .idle, expectedAck := 0x01, retryCount := 0, resendPending := false, off := 0,
                plen := s.plen, frame := s.snd.frame, flen := 0, cause := .noAbort }
            result := BitVec.ofNat 32 (ceilDiv s.plen.toNat s.cfg.chunkSize)
            err := .eNone }))

/-- R133: RCV_START. -/
def Obligations.RcvStartOpensSession : Prop :=
  selectedBy 0x31 (fun _ => .rcvStart) ∧
  ∀ s : State,
    (s.rcv.state = .listening → exec .rcvStart s = .next { s with err := .eBusy }) ∧
    (s.rcv.state = .off ∨ s.rcv.state = .done ∨ s.rcv.state = .aborted →
      exec .rcvStart s =
        .next { s with
          rcv :=
            { state := .listening, expectedSeq := 0x01, timeoutCount := 0, delivered := false,
              dcount := 0, cause := .noAbort }
          result := 0
          err := .eNone })

/-- R153: a command that raises an error changes ERR and nothing else. -/
def Obligations.CommandErrorsChangeOnlyErr : Prop :=
  ∀ (i : Instr) (s t : State), exec i s = .next t → t.err ≠ .eNone → t = { s with err := t.err }

/-! ### Sender steps -/

/-- R122: Idle with a chunk left builds the frame, keeps it and sends it. That the bytes of `snd.frame`
at and above the frame's length stay as they were is the model's choice (log 11, DEDUCED): R39 gives them
no value. -/
def Obligations.SenderBuildsAndSendsFrame : Prop :=
  ∀ s : State, s.cfg.legal = true → s.snd.state = .idle → s.snd.off.toNat < s.snd.plen.toNat →
    let n := min s.cfg.chunkSize (s.snd.plen.toNat - s.snd.off.toNat)
    let ch := s.readBytes .pmem s.snd.off.toNat n
    let f := ch ++ digest s.cfg.digestFormat ch ++ [s.snd.expectedAck]
    ∃ m : Memory,
      let t := { s with
        snd := { s.snd with
          frame := m, flen := BitVec.ofNat 32 (n + 10), resendPending := false, state := .awaitingAck }
        sndTx := s.sndTx ++ [f] }
      senderStep s = t ∧ 1 ≤ n ∧ n ≤ s.cfg.chunkSize ∧
        ∀ a, t.byteAt .frame a = f.getD a (s.byteAt .frame a)

/-- R123: Idle with no chunk left sends DONE once and finishes. -/
def Obligations.SenderSendsDoneAtEnd : Prop :=
  ∀ s : State, s.snd.state = .idle → s.snd.off = s.snd.plen →
    senderStep s =
      { s with snd := { s.snd with state := .done }, sndTx := s.sndTx ++ [[0x44, 0x4F, 0x4E, 0x45]] }

/-- R124 and R125: AwaitingAck, the one-byte message equal to the expected code advances by the chunk;
any other message sends the kept frame again, unchanged, and counts nothing. -/
def Obligations.SenderAdvancesOrRetransmits : Prop :=
  ∀ (s : State) (x : RxSignals) (more : List RxSignals) (m : ByteString),
    s.snd.state = .awaitingAck → s.sndRx = x :: more → x.event = some (.msg m) →
    (m = [s.snd.expectedAck] →
      senderStep s =
        { s with
          sndRx := more
          snd := { s.snd with
            expectedAck := BitVec.ofNat 8 ((s.snd.expectedAck.toNat + 1) % 256), retryCount := 0,
            resendPending := false, off := s.snd.off + (s.snd.flen - 10), state := .idle } }) ∧
    (m ≠ [s.snd.expectedAck] →
      senderStep s =
        { s with
          sndRx := more
          snd := { s.snd with resendPending := true }
          sndTx := s.sndTx ++ [s.readBytes .frame 0 s.snd.flen.toNat] })

/-- R126 and R127: AwaitingAck and a timeout counts, then retransmits or aborts at RETRY_LIMIT; a
transport error aborts. The count below the limit is part of `Inv`. -/
def Obligations.SenderTimeoutsAndAborts : Prop :=
  ∀ (s : State) (x : RxSignals) (more : List RxSignals), s.snd.state = .awaitingAck →
    s.sndRx = x :: more → s.snd.retryCount.toNat < s.cfg.retryLimit → s.cfg.retryLimit ≤ 255 →
    (x.event = some .timeout → s.snd.retryCount.toNat + 1 ≠ s.cfg.retryLimit →
      senderStep s =
        { s with
          sndRx := more
          snd := { s.snd with retryCount := s.snd.retryCount + 1, resendPending := true }
          sndTx := s.sndTx ++ [s.readBytes .frame 0 s.snd.flen.toNat] }) ∧
    (x.event = some .timeout → s.snd.retryCount.toNat + 1 = s.cfg.retryLimit →
      senderStep s =
        { s with
          sndRx := more
          snd := { s.snd with
            retryCount := s.snd.retryCount + 1, state := .aborted, cause := .retryExhausted } }) ∧
    (x.event = some .error →
      senderStep s =
        { s with sndRx := more, snd := { s.snd with state := .aborted, cause := .transportError } }) ∧
    AbortCause.retryExhausted.code = 0x01 ∧ AbortCause.transportError.code = 0x03

/-! ### Receiver steps -/

/-- R136 and R143: DONE finishes and sends nothing; a transport error aborts and sends nothing. -/
def Obligations.ReceiverEndsOnDoneOrError : Prop :=
  ∀ (s : State) (x : RxSignals) (more : List RxSignals), s.rcv.state = .listening →
    s.rcvRx = x :: more →
    (x.event = some (.msg [0x44, 0x4F, 0x4E, 0x45]) →
      receiverStep s =
        { s with rcvRx := more, rcv := { s.rcv with delivered := false, state := .done } }) ∧
    (x.event = some .error →
      receiverStep s =
        { s with
          rcvRx := more
          rcv := { s.rcv with delivered := false, state := .aborted, cause := .transportError } })

/-- R137 and R141: a message that cannot be a frame, a failed checksum, and a seq code that is neither
expected nor earlier each get `NotSame`, and no counter moves. -/
def Obligations.ReceiverRejectsWithMismatch : Prop :=
  ∀ (s : State) (x : RxSignals) (more : List RxSignals) (m : ByteString),
    s.rcv.state = .listening → s.rcvRx = x :: more → x.event = some (.msg m) →
    m ≠ [0x44, 0x4F, 0x4E, 0x45] →
    (m.length < 10 ∨ s.cfg.rxMsgMax < m.length ∨
      ∃ p d seq, m = p ++ d ++ [seq] ∧ d.length = 9 ∧
        (digest s.cfg.digestFormat p ≠ d ∨
          (seq ≠ s.rcv.expectedSeq ∧ earlier s.cfg.staleWindow seq s.rcv.expectedSeq = false))) →
    receiverStep s =
      { s with
        rcvRx := more
        rcv := { s.rcv with delivered := false }
        rcvTx := s.rcvTx ++ [[0x4E, 0x6F, 0x74, 0x53, 0x61, 0x6D, 0x65]] }

/-- R138 and R139: the expected frame is delivered whole, acknowledged with its code, and the receiver
advances; if its payload fails TEXT_OK it gets `Unicode` and nothing is delivered. -/
def Obligations.ReceiverTakesExpectedFrame : Prop :=
  ∀ (s : State) (x : RxSignals) (more : List RxSignals) (p : ByteString),
    s.rcv.state = .listening → s.rcvRx = x :: more →
    x.event = some (.msg (p ++ digest s.cfg.digestFormat p ++ [s.rcv.expectedSeq])) →
    p.length + 10 ≤ s.cfg.rxMsgMax →
    (textOk s.cfg.textCheck p = true →
      receiverStep s =
        { s with
          rcvRx := more
          rcv := { s.rcv with
            delivered := true, dcount := BitVec.ofNat 32 (s.rcv.dcount.toNat + p.length),
            expectedSeq := BitVec.ofNat 8 ((s.rcv.expectedSeq.toNat + 1) % 256), timeoutCount := 0 }
          dlv := s.dlv ++ [p]
          rcvTx := s.rcvTx ++ [[s.rcv.expectedSeq]] }) ∧
    (textOk s.cfg.textCheck p = false →
      receiverStep s =
        { s with
          rcvRx := more
          rcv := { s.rcv with delivered := false }
          rcvTx := s.rcvTx ++ [[0x55, 0x6E, 0x69, 0x63, 0x6F, 0x64, 0x65]] })

/-- R140: a valid earlier frame is acknowledged with its own code; nothing is delivered. -/
def Obligations.ReceiverReacknowledgesEarlierFrame : Prop :=
  ∀ (s : State) (x : RxSignals) (more : List RxSignals) (p : ByteString) (seq : Byte),
    s.rcv.state = .listening → s.rcvRx = x :: more →
    x.event = some (.msg (p ++ digest s.cfg.digestFormat p ++ [seq])) →
    p.length + 10 ≤ s.cfg.rxMsgMax → seq ≠ s.rcv.expectedSeq →
    earlier s.cfg.staleWindow seq s.rcv.expectedSeq = true →
    receiverStep s =
      { s with
        rcvRx := more
        rcv := { s.rcv with delivered := false, timeoutCount := 0 }
        rcvTx := s.rcvTx ++ [[seq]] }

/-- R142: a timeout sends `TIMEOUT`, counts, and aborts when the count reaches TIMEOUT_LIMIT. The count
below the limit is part of `Inv`. -/
def Obligations.ReceiverTimeoutsAndAborts : Prop :=
  ∀ (s : State) (x : RxSignals) (more : List RxSignals), s.rcv.state = .listening →
    s.rcvRx = x :: more → x.event = some .timeout → s.rcv.timeoutCount.toNat < s.cfg.timeoutLimit →
    s.cfg.timeoutLimit ≤ 255 →
    let tok : ByteString := [0x54, 0x49, 0x4D, 0x45, 0x4F, 0x55, 0x54]
    (s.rcv.timeoutCount.toNat + 1 ≠ s.cfg.timeoutLimit →
      receiverStep s =
        { s with
          rcvRx := more
          rcv := { s.rcv with delivered := false, timeoutCount := s.rcv.timeoutCount + 1 }
          rcvTx := s.rcvTx ++ [tok] }) ∧
    (s.rcv.timeoutCount.toNat + 1 = s.cfg.timeoutLimit →
      receiverStep s =
        { s with
          rcvRx := more
          rcv := { s.rcv with
            delivered := false, timeoutCount := s.rcv.timeoutCount + 1, state := .aborted,
            cause := .timeoutExhausted }
          rcvTx := s.rcvTx ++ [tok] }) ∧
    AbortCause.timeoutExhausted.code = 0x02

/-- R84: the event that each RX_KIND presents, and the signals of each event. An engine that is off or
has ended, and a receiver that is not listening, does nothing on its turn; a waiting engine without an
event keeps its state (R121, R134). That a sample of kind 0b00 is taken off the list of samples is the
model's choice, as the list is (log 4, DESIGN CHOICE). A sender in Idle acts: R122 and R123. -/
def Obligations.EnginesWaitWithoutEvent : Prop :=
  ∀ s : State,
    (s.snd.state = .off ∨ s.snd.state = .done ∨ s.snd.state = .aborted → senderStep s = s) ∧
    (s.snd.state = .awaitingAck → s.sndRx = [] → senderStep s = s) ∧
    (∀ x more, s.snd.state = .awaitingAck → s.sndRx = x :: more → x.kind = 0 →
      senderStep s = { s with sndRx := more }) ∧
    (s.rcv.state ≠ .listening → receiverStep s = s) ∧
    (s.rcv.state = .listening → s.rcvRx = [] → receiverStep s = s) ∧
    (∀ x more, s.rcv.state = .listening → s.rcvRx = x :: more → x.kind = 0 →
      receiverStep s = { s with rcvRx := more }) ∧
    (∀ x : RxSignals,
      (x.kind = 0b00 → x.event = none) ∧ (x.kind = 0b01 → x.event = some (.msg x.data)) ∧
        (x.kind = 0b10 → x.event = some .timeout) ∧ (x.kind = 0b11 → x.event = some .error)) ∧
    (∀ m, (RxEvent.msg m).signals.kind = 0b01 ∧ (RxEvent.msg m).signals.data = m) ∧
    RxEvent.timeout.signals.kind = 0b10 ∧ RxEvent.error.signals.kind = 0b11

/-! ### Codec functions -/

/-- R87 and R88: the byte sum is the sum of the byte values, and the digest does not depend on their
order. -/
def Obligations.DigestIsOrderFreeSum : Prop :=
  (∀ p : ByteString, bsum p = (p.map BitVec.toNat).sum) ∧
    ∀ (f : DigestFormat) (p q : ByteString), p.Perm q → bsum p = bsum q ∧ digest f p = digest f q

/-- R89 and R90: byte j of the nine is hexadecimal digit 8 − j of the sum in lower-case ASCII, or byte
8 − j of the sum. R91: the digest of a byte string is that format of its byte sum, always nine bytes. -/
def Obligations.DigestFormatsByteByByte : Prop :=
  (∀ n j : Nat, j < 9 →
    (fmt9 .hex9 n).length = 9 ∧ (fmt9 .bin9 n).length = 9 ∧
    (∀ d, d = (n % 2 ^ 36) >>> (4 * (8 - j)) &&& 0xF →
      ((fmt9 .hex9 n).getD j 0).toNat = if d < 10 then 0x30 + d else 0x61 + (d - 10)) ∧
    ((fmt9 .bin9 n).getD j 0).toNat = (n % 2 ^ 72) >>> (8 * (8 - j)) &&& 0xFF) ∧
  ∀ (f : DigestFormat) (p : ByteString), digest f p = fmt9 f (bsum p) ∧ (digest f p).length = 9

/-- R94: under HEX9 with a sum below 16^9 − 255, changing exactly one byte always changes the digest. -/
def Obligations.SingleByteChangeIsDetected : Prop :=
  ∀ (pre post : ByteString) (b c : Byte), b ≠ c → bsum (pre ++ [b] ++ post) < 16 ^ 9 - 255 →
    digest .hex9 (pre ++ [b] ++ post) ≠ digest .hex9 (pre ++ [c] ++ post)

/-- R97 and R98: the slices of a payload, their number, and their concatenation. -/
def Obligations.ChunksSliceThePayload : Prop :=
  ∀ (c : Nat) (p : ByteString), 1 ≤ c →
    (chunks c p).length = ceilDiv p.length c ∧
    (∀ k, k < ceilDiv p.length c → (chunks c p)[k]? = some ((p.drop (k * c)).take c)) ∧
    (chunks c p).flatten = p ∧
    (∀ k, k + 1 < ceilDiv p.length c → ((chunks c p).getD k []).length = c) ∧
    (∀ k, k + 1 = ceilDiv p.length c →
      ((chunks c p).getD k []).length = p.length - k * c ∧ 1 ≤ p.length - k * c ∧ p.length - k * c ≤ c)

/-- R100 and R101: decode fails exactly below 10 bytes, otherwise it splits the message at its end, and
it recovers what encode put in. -/
def Obligations.FrameFieldsRoundTrip : Prop :=
  (∀ w : ByteString, frameFields w = none ↔ w.length < 10) ∧
  (∀ (w : ByteString) (x : FrameFields), frameFields w = some x →
    w = x.payload ++ x.checksum ++ [x.seq] ∧ x.checksum.length = 9) ∧
  ∀ (f : DigestFormat) (ch : ByteString) (c : Byte),
    frameFields (frameBytes f ch c) = some { payload := ch, checksum := digest f ch, seq := c }

/-- R102 and R82: a token's wire value gets its code and nothing else does; acks, tokens and frames are
told apart by length and content. The four codes and the four wire values are those of R80. -/
def Obligations.TokensRecognisedExactly : Prop :=
  (∀ tok : Token, tokenClass tok.wire = tok.code) ∧
  (∀ (m : ByteString) (tok : Token), tokenClass m = tok.code → m = tok.wire) ∧
  (∀ m : ByteString, tokenClass m = 0 ↔ ∀ tok : Token, m ≠ tok.wire) ∧
  (∀ (c : Byte), (ackBytes c).length = 1) ∧
  (∀ tok : Token, tok.wire.length = 4 ∨ tok.wire.length = 7) ∧
  (∀ (f : DigestFormat) (ch : ByteString) (c : Byte), 10 ≤ (frameBytes f ch c).length) ∧
  Token.done.code = 1 ∧ Token.timeout.code = 2 ∧ Token.unicodeError.code = 3 ∧ Token.mismatch.code = 4 ∧
  Token.done.wire = [0x44, 0x4F, 0x4E, 0x45] ∧
  Token.timeout.wire = [0x54, 0x49, 0x4D, 0x45, 0x4F, 0x55, 0x54] ∧
  Token.unicodeError.wire = [0x55, 0x6E, 0x69, 0x63, 0x6F, 0x64, 0x65] ∧
  Token.mismatch.wire = [0x4E, 0x6F, 0x74, 0x53, 0x61, 0x6D, 0x65]

/-- R113 and R114, over the codes of R112: codes and values are two names of one cycle of 256, and
increment goes once around it. -/
def Obligations.SeqCodesCycleThroughValues : Prop :=
  (∀ c : Byte, seqCode (seqValue c) = c ∧ 1 ≤ seqValue c ∧ seqValue c ≤ 256) ∧
  (∀ v : Nat, 1 ≤ v → v ≤ 256 → (seqCode v).toNat = v % 256 ∧ seqValue (seqCode v) = v) ∧
  (∀ c : Byte, (seqInc c).toNat = (c.toNat + 1) % 256 ∧
    seqValue (seqInc c) = if seqValue c = 256 then 1 else seqValue c + 1) ∧
  ∀ c : Byte, seqInc^[256] c = c

/-- R116: the properties of `earlier` under every window, which is the test of R115. -/
def Obligations.EarlierIsWrapAware : Prop :=
  ∀ (window : Nat) (s c : Byte),
    (earlier window s c = true ↔
      1 ≤ (c.toNat + 256 - s.toNat) % 256 ∧ (c.toNat + 256 - s.toNat) % 256 ≤ window) ∧
    earlier window c c = false ∧
    (1 ≤ window → earlier window s (seqInc s) = true) ∧
    (window ≤ 127 → ¬(earlier window s c = true ∧ earlier window c s = true)) ∧
    (window = 255 → s ≠ c → earlier window s c = true)

/-! ### Host interface -/

/-- R52: an admitted read answers the register or byte, and changes nothing but the host's record
(log 7). The register window reads what the map of R23 has there, offset by offset; the packed registers
and the configuration registers are those of `PackedRegistersHoldTheirFields` and
`ConfigurationRangesAndRegisters`. -/
def Obligations.ReadsOnlyAnswer : Prop :=
  ∀ s : State,
    (s.readOffset 0x00 = 0 ∧ s.readOffset 0x04 = s.arg ∧ s.readOffset 0x08 = s.result ∧
      (s.readOffset 0x0C).toNat = s.err.code.toNat ∧ s.readOffset 0x10 = s.inLen ∧
      s.readOffset 0x14 = s.outLen ∧ s.readOffset 0x18 = s.plen ∧
      s.readOffset 0x1C = s.readReg .dgst0 ∧ s.readOffset 0x20 = s.readReg .dgst1 ∧
      s.readOffset 0x24 = s.readReg .dgst2 ∧ s.readOffset 0x28 = s.readReg .cfgC ∧
      s.readOffset 0x2C = s.readReg .cfgLimits ∧ s.readOffset 0x30 = s.readReg .sndStatus ∧
      s.readOffset 0x34 = s.snd.off ∧ s.readOffset 0x38 = s.snd.plen ∧ s.readOffset 0x3C = s.snd.flen ∧
      s.readOffset 0x40 = s.readReg .rcvStatus ∧ s.readOffset 0x44 = s.rcv.dcount ∧
      s.readOffset 0x48 = s.readReg .cfgIbuf ∧ s.readOffset 0x4C = s.readReg .cfgObuf ∧
      s.readOffset 0x50 = s.readReg .cfgPmem ∧ s.readOffset 0x54 = s.readReg .cfgRxmax ∧
      ∀ off : Nat, 0x58 ≤ off → s.readOffset off = 0) ∧
    (∀ a : Word, a.toNat ≤ 0xFF → a.toNat % 4 = 0 →
      hostAccess (.readWord a) s =
        .next { s with hostReads := s.hostReads ++ [.word (s.readOffset a.toNat)] }) ∧
    (∀ i : Nat, i < 65536 →
      hostAccess (.readByte (BitVec.ofNat 32 (0x10000 + i))) s =
        .next { s with hostReads :=
          s.hostReads ++ [.byte (if i < s.cfg.ibufSize then s.byteAt .ibuf i else 0)] }) ∧
    (∀ i : Nat, i < 65536 →
      hostAccess (.readByte (BitVec.ofNat 32 (0x20000 + i))) s =
        .next { s with hostReads :=
          s.hostReads ++ [.byte (if i < s.cfg.obufSize then s.byteAt .obuf i else 0)] }) ∧
    (∀ i : Nat, i < 2 ^ 31 →
      hostAccess (.readByte (BitVec.ofNat 32 (0x80000000 + i))) s =
        .next { s with hostReads :=
          s.hostReads ++ [.byte (if i < s.cfg.pmemSize then s.byteAt .pmem i else 0)] }) ∧
    ∀ a : Word, (0x100 ≤ a.toNat ∧ a.toNat ≤ 0xFFFF) ∨ (0x30000 ≤ a.toNat ∧ a.toNat ≤ 0x7FFFFFFF) →
      hostAccess (.readByte a) s = .next { s with hostReads := s.hostReads ++ [.byte 0] }

/-- R24 and R53: writes to read-only registers, reserved offsets, reserved windows, OBUF, and past a
buffer's size change nothing and set no error; CMD and reserved offsets read 0. That a write at or past
PMEM_SIZE is ignored without E_BUSY also while the sender is active is the model's choice, read from R48
and R55 (log 10, DEDUCED). -/
def Obligations.IgnoredWritesChangeNothing : Prop :=
  ∀ s : State,
    s.readOffset 0x00 = 0 ∧ (∀ off : Nat, 0x58 ≤ off → s.readOffset off = 0) ∧
    (∀ (a v : Word), a.toNat ≤ 0xFF → a.toNat % 4 = 0 →
      a.toNat ≠ 0x00 → a.toNat ≠ 0x04 → a.toNat ≠ 0x10 → a.toNat ≠ 0x18 →
      hostAccess (.writeWord a v) s = .next s) ∧
    (∀ (a : Word) (v : Byte), 0x20000 ≤ a.toNat → a.toNat ≤ 0x2FFFF →
      hostAccess (.writeByte a v) s = .next s) ∧
    (∀ (a : Word) (v : Byte),
      (0x100 ≤ a.toNat ∧ a.toNat ≤ 0xFFFF) ∨ (0x30000 ≤ a.toNat ∧ a.toNat ≤ 0x7FFFFFFF) →
      hostAccess (.writeByte a v) s = .next s) ∧
    (∀ (i : Nat) (v : Byte), s.cfg.ibufSize ≤ i → i < 65536 →
      hostAccess (.writeByte (BitVec.ofNat 32 (0x10000 + i)) v) s = .next s) ∧
    ∀ (i : Nat) (v : Byte), s.cfg.pmemSize ≤ i → i < 2 ^ 31 →
      hostAccess (.writeByte (BitVec.ofNat 32 (0x80000000 + i)) v) s = .next s

/-- R55: while the sender is Idle or AwaitingAck a write to a PMEM byte or to PLEN is refused with
E_BUSY; in any other state it stores. -/
def Obligations.PayloadWritesAreGuarded : Prop :=
  ∀ (s : State) (i : Nat) (b : Byte) (v : Word), i < s.cfg.pmemSize → i < 2 ^ 31 →
    let pmemWrite := hostAccess (.writeByte (BitVec.ofNat 32 (0x80000000 + i)) b) s
    let plenWrite := hostAccess (.writeWord 0x18 v) s
    (s.snd.state = .idle ∨ s.snd.state = .awaitingAck →
      pmemWrite = .next { s with err := .eBusy } ∧ plenWrite = .next { s with err := .eBusy }) ∧
    (s.snd.state = .off ∨ s.snd.state = .done ∨ s.snd.state = .aborted →
      plenWrite = .next { s with plen := v } ∧
        ∃ m : Memory,
          let t := { s with pmem := m }
          pmemWrite = .next t ∧
            ∀ a, t.byteAt .pmem a = if a = i then b else s.byteAt .pmem a) ∧
    ErrCode.eBusy.code = 0x02

/-- R26 and R29: ARG and IN_LEN store every value and read it back; an IBUF byte write stores that byte
and no other (R48). -/
def Obligations.PlainWritesReadBack : Prop :=
  ∀ (s : State) (v : Word),
    hostAccess (.writeWord 0x04 v) s = .next { s with arg := v } ∧
    ({ s with arg := v } : State).readOffset 0x04 = v ∧
    hostAccess (.writeWord 0x10 v) s = .next { s with inLen := v } ∧
    ({ s with inLen := v } : State).readOffset 0x10 = v ∧
    ∀ (i : Nat) (b : Byte), i < s.cfg.ibufSize → i < 65536 →
      ∃ m : Memory,
        let t := { s with ibuf := m }
        hostAccess (.writeByte (BitVec.ofNat 32 (0x10000 + i)) b) s = .next t ∧
          ∀ a, t.byteAt .ibuf a = if a = i then b else s.byteAt .ibuf a

/-- R49 and R50: a register access that is not an aligned 32-bit access, and a buffer or reserved access
that is not 8 bits, are refused. -/
def Obligations.WrongAccessesAreRefused : Prop :=
  ∀ (s : State) (a v : Word) (b : Byte) (bits : Nat) (isWrite : Bool),
    (a.toNat ≤ 0xFF →
      hostAccess (.readByte a) s = .refused .registerAccess ∧
      hostAccess (.writeByte a b) s = .refused .registerAccess ∧
      hostAccess (.otherWidth a bits isWrite) s = .refused .registerAccess ∧
      (a.toNat % 4 ≠ 0 →
        hostAccess (.readWord a) s = .refused .registerAccess ∧
        hostAccess (.writeWord a v) s = .refused .registerAccess)) ∧
    (0x100 ≤ a.toNat →
      hostAccess (.readWord a) s = .refused .bufferAccess ∧
      hostAccess (.writeWord a v) s = .refused .bufferAccess ∧
      hostAccess (.otherWidth a bits isWrite) s = .refused .bufferAccess)

/-- R34 and R36: every field of the two status registers and their reset values; the packing of the
digest in DGST0, DGST1 and DGST2 (R32); and what ERR reads in every state, the codes 0 to 5 with zeros
above them (R28, R149). -/
def Obligations.PackedRegistersHoldTheirFields : Prop :=
  State.reset.readReg .sndStatus = 0x00010000 ∧ State.reset.readReg .rcvStatus = 0x00010000 ∧
  State.reset.readReg .rcvDcount = 0 ∧ (∀ s : State, s.readReg .rcvDcount = s.rcv.dcount) ∧
  (∀ s : State,
    let w := (s.readReg .sndStatus).toNat
    w % 2 ^ 3 = (match s.snd.state with
      | .off => 0 | .idle => 1 | .awaitingAck => 2 | .done => 3 | .aborted => 4) ∧
    w / 2 ^ 3 % 2 = s.snd.resendPending.toNat ∧ w / 2 ^ 4 % 2 ^ 4 = 0 ∧
    w / 2 ^ 8 % 2 ^ 8 = s.snd.retryCount.toNat ∧ w / 2 ^ 16 % 2 ^ 8 = s.snd.expectedAck.toNat ∧
    w / 2 ^ 24 = s.snd.cause.code.toNat) ∧
  (∀ s : State,
    let w := (s.readReg .rcvStatus).toNat
    w % 2 ^ 3 = (match s.rcv.state with | .off => 0 | .listening => 1 | .done => 2 | .aborted => 3) ∧
    w / 2 ^ 3 % 2 = s.rcv.delivered.toNat ∧ w / 2 ^ 4 % 2 ^ 4 = 0 ∧
    w / 2 ^ 8 % 2 ^ 8 = s.rcv.timeoutCount.toNat ∧ w / 2 ^ 16 % 2 ^ 8 = s.rcv.expectedSeq.toNat ∧
    w / 2 ^ 24 = s.rcv.cause.code.toNat) ∧
  (∀ s : State,
    s.readReg .err = (match s.err with
      | .eNone => 0x00000000 | .eIllegalOp => 0x00000001 | .eBusy => 0x00000002
      | .eLen => 0x00000003 | .eShort => 0x00000004 | .eRange => 0x00000005) ∧
    (s.readReg .err).toNat = s.err.code.toNat ∧ (s.readReg .err).toNat / 2 ^ 8 = 0) ∧
  ∀ (s : State) (g : ByteString), s.dgst = g → g.length = 9 →
    (s.readReg .dgst0).toNat = (g.getD 3 0).toNat * 2 ^ 24 + (g.getD 2 0).toNat * 2 ^ 16 +
      (g.getD 1 0).toNat * 2 ^ 8 + (g.getD 0 0).toNat ∧
    (s.readReg .dgst1).toNat = (g.getD 7 0).toNat * 2 ^ 24 + (g.getD 6 0).toNat * 2 ^ 16 +
      (g.getD 5 0).toNat * 2 ^ 8 + (g.getD 4 0).toNat ∧
    (s.readReg .dgst2).toNat = (g.getD 8 0).toNat

/-! ### Reset -/

/-- R169: reset at any time gives every register and engine field its reset value and empties the
traces. R170: storage is drawn anew; that an unwritten byte is the free value of a draw (log 5) and that
a counter, which reset advances, numbers the draws (log 6) is the model's choice. -/
def Obligations.ResetSetsEveryField : Prop :=
  ∀ (s : State) (rest : List Action), s.cfg.legal = true → s.sched = .reset :: rest →
    ∃ t, step s = .next t ∧
      t.arg = 0 ∧ t.result = 0 ∧ t.readReg .err = 0 ∧ t.inLen = 0 ∧ t.outLen = 0 ∧ t.plen = 0 ∧
      t.readReg .dgst0 = 0 ∧ t.readReg .dgst1 = 0 ∧ t.readReg .dgst2 = 0 ∧ t.cfg = s.cfg ∧
      (∀ r : Reg, r ∈ [Reg.cfgC, .cfgLimits, .cfgIbuf, .cfgObuf, .cfgPmem, .cfgRxmax] →
        t.readReg r = s.readReg r) ∧
      t.readReg .sndStatus = 0x00010000 ∧ t.snd.off = 0 ∧ t.snd.plen = 0 ∧ t.snd.flen = 0 ∧
      t.readReg .rcvStatus = 0x00010000 ∧ t.rcv.dcount = 0 ∧
      t.sndTx = [] ∧ t.rcvTx = [] ∧ t.dlv = [] ∧ t.draw = s.draw + 1 ∧
      ∀ sp a, t.byteAt sp a = Config.unspecifiedByte t.draw sp a

/-! ### Invariants and whole-machine rules -/

/-- The state right after reset, of any legal configuration and draw, is a good state. -/
def Obligations.ResetIsGood : Prop :=
  Inv State.reset ∧ ∀ (cfg : Params) (d : Nat), cfg.legal = true → Inv (State.resetWith cfg d)

/-- Every step keeps the invariant: canonical storage inside its size, OUT_LEN ≤ OBUF_SIZE (R30), nine
digest bytes (R32), `snd.off ≤ snd.plen ≤ PMEM_SIZE` at chunk boundaries (R22), the kept frame equal to
the encoding of the chunk in flight (R39, R122), the counters below their limits (R126, R142), and a cause
exactly in Aborted (R154). -/
def Obligations.StepKeepsInvariant : Prop :=
  ∀ s t : State, Inv s → step s = .next t → Inv t

/-- R175: no step changes a parameter. And but for reset every trace only grows (R45), by at most one entry
a step. -/
def Obligations.ParametersFixedTracesAppendOnly : Prop :=
  ∀ s t : State, step s = .next t →
    t.cfg = s.cfg ∧
      ((∃ rest, s.sched = .reset :: rest) ∨
        ∃ a b c : List ByteString,
          t.sndTx = s.sndTx ++ a ∧ t.rcvTx = s.rcvTx ++ b ∧ t.dlv = s.dlv ++ c ∧
            a.length ≤ 1 ∧ b.length ≤ 1 ∧ c.length ≤ 1)

/-- R46: each engine's turn writes only its own state, ports and traces, and reads only these, the
parameters, and (the sender) PMEM, whose unwritten bytes the model's draw selects (log 6). -/
def Obligations.EnginesShareNoState : Prop :=
  (∀ s : State,
    senderStep s =
      { s with snd := (senderStep s).snd, sndRx := (senderStep s).sndRx, sndTx := (senderStep s).sndTx } ∧
    receiverStep s =
      { s with
        rcv := (receiverStep s).rcv, rcvRx := (receiverStep s).rcvRx, rcvTx := (receiverStep s).rcvTx,
        dlv := (receiverStep s).dlv }) ∧
  (∀ s t : State, t.cfg = s.cfg → t.snd = s.snd → t.sndRx = s.sndRx → t.sndTx = s.sndTx →
    t.pmem = s.pmem → t.draw = s.draw →
    (senderStep t).snd = (senderStep s).snd ∧ (senderStep t).sndRx = (senderStep s).sndRx ∧
      (senderStep t).sndTx = (senderStep s).sndTx) ∧
  ∀ s t : State, t.cfg = s.cfg → t.rcv = s.rcv → t.rcvRx = s.rcvRx → t.rcvTx = s.rcvTx →
    t.dlv = s.dlv →
    (receiverStep t).rcv = (receiverStep s).rcv ∧ (receiverStep t).rcvRx = (receiverStep s).rcvRx ∧
      (receiverStep t).rcvTx = (receiverStep s).rcvTx ∧ (receiverStep t).dlv = (receiverStep s).dlv

/-- R144, and the same of the sender (R128): an engine in Done or Aborted is left by its START command and
by reset only. -/
def Obligations.EndedSessionsAreTerminal : Prop :=
  ∀ s t : State, step s = .next t →
    (s.senderEnded → t.snd ≠ s.snd →
      ∃ rest, s.sched = .reset :: rest ∨
        ∃ w, s.sched = .host (.writeWord 0 w) :: rest ∧ decode w = .command .sndStart) ∧
    (s.receiverEnded → t.rcv ≠ s.rcv →
      ∃ rest, s.sched = .reset :: rest ∨
        ∃ w, s.sched = .host (.writeWord 0 w) :: rest ∧ decode w = .command .rcvStart)

/-- R56: while a sender session runs, no step but reset changes PMEM, PLEN or the captured length: every
byte of PMEM reads as before, an unwritten one too. -/
def Obligations.PayloadFrozenDuringSession : Prop :=
  ∀ s t : State, s.snd.state = .idle ∨ s.snd.state = .awaitingAck →
    (∀ rest, s.sched ≠ .reset :: rest) → step s = .next t →
    (∀ a, t.byteAt .pmem a = s.byteAt .pmem a) ∧ t.pmem = s.pmem ∧ t.plen = s.plen ∧
      t.snd.plen = s.snd.plen

/-- R130: what a step of a good state sends is the frame of the chunk at `snd.off`, tagged with the chunk
number plus one mod 256, or DONE after the last chunk. -/
def Obligations.SentMessagesAreFramesInOrder : Prop :=
  ∀ s t : State, Inv s → step s = .next t → (∀ rest, s.sched ≠ .reset :: rest) →
    t.sndTx = s.sndTx ∨
    (t.sndTx = s.sndTx ++ [Token.wire .done] ∧ s.snd.state = .idle ∧ s.snd.off = s.snd.plen ∧
      t.snd.state = .done) ∨
    (s.snd.off.toNat < s.snd.plen.toNat ∧ s.snd.off.toNat % s.cfg.chunkSize = 0 ∧
      t.sndTx = s.sndTx ++
        [frameBytes s.cfg.digestFormat
          (s.readBytes .pmem s.snd.off.toNat
            (min s.cfg.chunkSize (s.snd.plen.toNat - s.snd.off.toNat)))
          (BitVec.ofNat 8 ((s.snd.off.toNat / s.cfg.chunkSize + 1) % 256))])

/-- R145: every delivery is of a whole payload, in the step that validated it: its frame has a valid
checksum and the expected code, its text is accepted, its ack is sent and the receiver advances. -/
def Obligations.DeliveryOnlyOfExpectedValidFrame : Prop :=
  ∀ s t : State, step s = .next t → (∀ rest, s.sched ≠ .reset :: rest) → t.dlv ≠ s.dlv →
    ∃ (x : RxSignals) (more : List RxSignals) (p : ByteString),
      s.rcv.state = .listening ∧ s.rcvRx = x :: more ∧
        x.event = some (.msg (frameBytes s.cfg.digestFormat p s.rcv.expectedSeq)) ∧
        textOk s.cfg.textCheck p = true ∧ t.dlv = s.dlv ++ [p] ∧
        t.rcvTx = s.rcvTx ++ [[s.rcv.expectedSeq]] ∧ t.rcv.expectedSeq = seqInc s.rcv.expectedSeq ∧
        t.rcv.timeoutCount = 0

/-- The lost ack (R140, R145): a frame that arrives twice is delivered once and acknowledged twice. -/
def Obligations.DuplicateFrameDeliveredOnce : Prop :=
  ∀ (s : State) (p : ByteString) (more : List RxSignals) (rest : List Action),
    s.cfg.legal = true → s.rcv.state = .listening →
    p.length + 10 ≤ s.cfg.rxMsgMax → textOk s.cfg.textCheck p = true →
    let f := frameBytes s.cfg.digestFormat p s.rcv.expectedSeq
    s.rcvRx = (RxEvent.msg f).signals :: (RxEvent.msg f).signals :: more →
    s.sched = .receiverStep :: .receiverStep :: rest →
    ∃ t : State,
      Host.Core.run Sys2Proof.core 2 s = .next t ∧ t.dlv = s.dlv ++ [p] ∧
        t.rcvTx = s.rcvTx ++ [[s.rcv.expectedSeq], [s.rcv.expectedSeq]] ∧
        t.rcv.expectedSeq = seqInc s.rcv.expectedSeq ∧ t.rcv.state = .listening ∧
        t.rcv.dcount = BitVec.ofNat 32 (s.rcv.dcount.toNat + p.length) ∧ t.snd = s.snd

/-- R129: if every wait for one frame ends in TIMEOUT, the sender sends it exactly RETRY_LIMIT times and
aborts at the RETRY_LIMIT-th timeout. The sender's turns follow one another in the schedule (log 3). -/
def Obligations.SenderAbortsAfterRetryLimit : Prop :=
  ∀ (s : State) (more : List RxSignals) (rest : List Action),
    s.cfg.legal = true → s.snd.state = .idle → s.snd.off.toNat < s.snd.plen.toNat →
    s.snd.retryCount = 0 →
    s.sndRx = List.replicate s.cfg.retryLimit RxEvent.timeout.signals ++ more →
    s.sched = List.replicate (s.cfg.retryLimit + 1) .senderStep ++ rest →
    let f := frameBytes s.cfg.digestFormat s.chunkAtOff s.snd.expectedAck
    ∃ t : State,
      Host.Core.run Sys2Proof.core (s.cfg.retryLimit + 1) s = .next t ∧
        t.snd.state = .aborted ∧ t.snd.cause = .retryExhausted ∧
        t.snd.retryCount.toNat = s.cfg.retryLimit ∧ t.snd.off = s.snd.off ∧
        t.sndTx = s.sndTx ++ List.replicate s.cfg.retryLimit f ∧
        t.sndRx = more ∧ t.sched = rest ∧ t.rcv = s.rcv

/-- R147: TIMEOUT_LIMIT consecutive silent waits send as many TIMEOUT tokens and abort at the last. The
receiver's turns follow one another in the schedule (log 3). -/
def Obligations.ReceiverAbortsAfterTimeoutLimit : Prop :=
  ∀ (s : State) (more : List RxSignals) (rest : List Action),
    s.cfg.legal = true → s.rcv.state = .listening → s.rcv.timeoutCount = 0 →
    s.rcvRx = List.replicate s.cfg.timeoutLimit RxEvent.timeout.signals ++ more →
    s.sched = List.replicate s.cfg.timeoutLimit .receiverStep ++ rest →
    ∃ t : State,
      Host.Core.run Sys2Proof.core s.cfg.timeoutLimit s = .next t ∧
        t.rcv.state = .aborted ∧ t.rcv.cause = .timeoutExhausted ∧
        t.rcv.timeoutCount.toNat = s.cfg.timeoutLimit ∧ t.rcv.expectedSeq = s.rcv.expectedSeq ∧
        t.rcvTx = s.rcvTx ++ List.replicate s.cfg.timeoutLimit (Token.wire .timeout) ∧
        t.dlv = s.dlv ∧ t.rcvRx = more ∧ t.sched = rest ∧ t.snd = s.snd

/-- The whole protocol over a channel that delivers every message once and in order: from a started
session the sender and the receiver end in Done, each chunk is sent once, acknowledged once and delivered
once, in order, and the delivered bytes are the payload (95_test_vectors.md 1.6, for every payload, chunk
size, digest format and starting code). Its premises beside the channel: the agents take turns in one
fixed order, each exchange whole before the next (log 3); TEXT_OK accepts every chunk; and a whole frame
is within RX_MSG_MAX, C + 10 ≤ RX_MSG_MAX. -/
def Obligations.FaultFreeSessionDeliversPayload : Prop :=
  ∀ (s : State) (more more' : List RxSignals) (rest : List Action),
    s.cfg.legal = true → s.cfg.chunkSize + 10 ≤ s.cfg.rxMsgMax →
    s.snd.state = .idle → s.snd.off = 0 → s.snd.plen.toNat ≤ s.cfg.pmemSize →
    s.rcv.state = .listening → s.rcv.expectedSeq = s.snd.expectedAck →
    let payload := s.readBytes .pmem 0 s.snd.plen.toNat
    let chs := chunks s.cfg.chunkSize payload
    let frames := sessionFrames s.cfg.digestFormat s.snd.expectedAck chs
    let acks := sessionAcks s.snd.expectedAck chs.length
    (∀ ch ∈ chs, textOk s.cfg.textCheck ch = true) →
    s.rcvRx = (frames ++ [Token.wire .done]).map (fun m => (RxEvent.msg m).signals) ++ more →
    s.sndRx = acks.map (fun m => (RxEvent.msg m).signals) ++ more' →
    s.sched = sessionTurns chs.length ++ rest →
    ∃ t : State,
      Host.Core.run Sys2Proof.core (3 * chs.length + 2) s = .next t ∧
        t.snd.state = .done ∧ t.rcv.state = .done ∧ t.snd.off = s.snd.plen ∧
        t.sndTx = s.sndTx ++ (frames ++ [Token.wire .done]) ∧ t.rcvTx = s.rcvTx ++ acks ∧
        t.dlv = s.dlv ++ chs ∧ chs.flatten = payload ∧
        t.rcvRx = more ∧ t.sndRx = more' ∧ t.sched = rest
end

