-- ==== Sys2Proof/Laws/State.lean ====
section
/-!
SUPPORT. What each named update of State does to each field: one lemma per field per update, true by rfl.
-/

namespace Sys2Proof.Machine

open Sys2Proof

/-! ### State.setErr -/

@[simp] theorem State.setErr_cfg (s : State) (e : ErrCode) : (s.setErr e).cfg = s.cfg := rfl
@[simp] theorem State.setErr_arg (s : State) (e : ErrCode) : (s.setErr e).arg = s.arg := rfl
@[simp] theorem State.setErr_result (s : State) (e : ErrCode) : (s.setErr e).result = s.result := rfl
@[simp] theorem State.setErr_err (s : State) (e : ErrCode) : (s.setErr e).err = e := rfl
@[simp] theorem State.setErr_inLen (s : State) (e : ErrCode) : (s.setErr e).inLen = s.inLen := rfl
@[simp] theorem State.setErr_outLen (s : State) (e : ErrCode) : (s.setErr e).outLen = s.outLen := rfl
@[simp] theorem State.setErr_plen (s : State) (e : ErrCode) : (s.setErr e).plen = s.plen := rfl
@[simp] theorem State.setErr_dgst (s : State) (e : ErrCode) : (s.setErr e).dgst = s.dgst := rfl
@[simp] theorem State.setErr_ibuf (s : State) (e : ErrCode) : (s.setErr e).ibuf = s.ibuf := rfl
@[simp] theorem State.setErr_obuf (s : State) (e : ErrCode) : (s.setErr e).obuf = s.obuf := rfl
@[simp] theorem State.setErr_pmem (s : State) (e : ErrCode) : (s.setErr e).pmem = s.pmem := rfl
@[simp] theorem State.setErr_snd (s : State) (e : ErrCode) : (s.setErr e).snd = s.snd := rfl
@[simp] theorem State.setErr_rcv (s : State) (e : ErrCode) : (s.setErr e).rcv = s.rcv := rfl
@[simp] theorem State.setErr_sndTx (s : State) (e : ErrCode) : (s.setErr e).sndTx = s.sndTx := rfl
@[simp] theorem State.setErr_rcvTx (s : State) (e : ErrCode) : (s.setErr e).rcvTx = s.rcvTx := rfl
@[simp] theorem State.setErr_dlv (s : State) (e : ErrCode) : (s.setErr e).dlv = s.dlv := rfl
@[simp] theorem State.setErr_sndRx (s : State) (e : ErrCode) : (s.setErr e).sndRx = s.sndRx := rfl
@[simp] theorem State.setErr_rcvRx (s : State) (e : ErrCode) : (s.setErr e).rcvRx = s.rcvRx := rfl
@[simp] theorem State.setErr_sched (s : State) (e : ErrCode) : (s.setErr e).sched = s.sched := rfl
@[simp] theorem State.setErr_hostReads (s : State) (e : ErrCode) : (s.setErr e).hostReads = s.hostReads := rfl
@[simp] theorem State.setErr_draw (s : State) (e : ErrCode) : (s.setErr e).draw = s.draw := rfl

/-! ### State.setResult -/

@[simp] theorem State.setResult_cfg (s : State) (v : Word) : (s.setResult v).cfg = s.cfg := rfl
@[simp] theorem State.setResult_arg (s : State) (v : Word) : (s.setResult v).arg = s.arg := rfl
@[simp] theorem State.setResult_result (s : State) (v : Word) : (s.setResult v).result = v := rfl
@[simp] theorem State.setResult_err (s : State) (v : Word) : (s.setResult v).err = s.err := rfl
@[simp] theorem State.setResult_inLen (s : State) (v : Word) : (s.setResult v).inLen = s.inLen := rfl
@[simp] theorem State.setResult_outLen (s : State) (v : Word) : (s.setResult v).outLen = s.outLen := rfl
@[simp] theorem State.setResult_plen (s : State) (v : Word) : (s.setResult v).plen = s.plen := rfl
@[simp] theorem State.setResult_dgst (s : State) (v : Word) : (s.setResult v).dgst = s.dgst := rfl
@[simp] theorem State.setResult_ibuf (s : State) (v : Word) : (s.setResult v).ibuf = s.ibuf := rfl
@[simp] theorem State.setResult_obuf (s : State) (v : Word) : (s.setResult v).obuf = s.obuf := rfl
@[simp] theorem State.setResult_pmem (s : State) (v : Word) : (s.setResult v).pmem = s.pmem := rfl
@[simp] theorem State.setResult_snd (s : State) (v : Word) : (s.setResult v).snd = s.snd := rfl
@[simp] theorem State.setResult_rcv (s : State) (v : Word) : (s.setResult v).rcv = s.rcv := rfl
@[simp] theorem State.setResult_sndTx (s : State) (v : Word) : (s.setResult v).sndTx = s.sndTx := rfl
@[simp] theorem State.setResult_rcvTx (s : State) (v : Word) : (s.setResult v).rcvTx = s.rcvTx := rfl
@[simp] theorem State.setResult_dlv (s : State) (v : Word) : (s.setResult v).dlv = s.dlv := rfl
@[simp] theorem State.setResult_sndRx (s : State) (v : Word) : (s.setResult v).sndRx = s.sndRx := rfl
@[simp] theorem State.setResult_rcvRx (s : State) (v : Word) : (s.setResult v).rcvRx = s.rcvRx := rfl
@[simp] theorem State.setResult_sched (s : State) (v : Word) : (s.setResult v).sched = s.sched := rfl
@[simp] theorem State.setResult_hostReads (s : State) (v : Word) :
    (s.setResult v).hostReads = s.hostReads := rfl
@[simp] theorem State.setResult_draw (s : State) (v : Word) : (s.setResult v).draw = s.draw := rfl

/-! ### State.setDigest -/

@[simp] theorem State.setDigest_cfg (s : State) (g : ByteString) : (s.setDigest g).cfg = s.cfg := rfl
@[simp] theorem State.setDigest_arg (s : State) (g : ByteString) : (s.setDigest g).arg = s.arg := rfl
@[simp] theorem State.setDigest_result (s : State) (g : ByteString) : (s.setDigest g).result = s.result := rfl
@[simp] theorem State.setDigest_err (s : State) (g : ByteString) : (s.setDigest g).err = s.err := rfl
@[simp] theorem State.setDigest_inLen (s : State) (g : ByteString) : (s.setDigest g).inLen = s.inLen := rfl
@[simp] theorem State.setDigest_outLen (s : State) (g : ByteString) : (s.setDigest g).outLen = s.outLen := rfl
@[simp] theorem State.setDigest_plen (s : State) (g : ByteString) : (s.setDigest g).plen = s.plen := rfl
@[simp] theorem State.setDigest_dgst (s : State) (g : ByteString) : (s.setDigest g).dgst = g := rfl
@[simp] theorem State.setDigest_ibuf (s : State) (g : ByteString) : (s.setDigest g).ibuf = s.ibuf := rfl
@[simp] theorem State.setDigest_obuf (s : State) (g : ByteString) : (s.setDigest g).obuf = s.obuf := rfl
@[simp] theorem State.setDigest_pmem (s : State) (g : ByteString) : (s.setDigest g).pmem = s.pmem := rfl
@[simp] theorem State.setDigest_snd (s : State) (g : ByteString) : (s.setDigest g).snd = s.snd := rfl
@[simp] theorem State.setDigest_rcv (s : State) (g : ByteString) : (s.setDigest g).rcv = s.rcv := rfl
@[simp] theorem State.setDigest_sndTx (s : State) (g : ByteString) : (s.setDigest g).sndTx = s.sndTx := rfl
@[simp] theorem State.setDigest_rcvTx (s : State) (g : ByteString) : (s.setDigest g).rcvTx = s.rcvTx := rfl
@[simp] theorem State.setDigest_dlv (s : State) (g : ByteString) : (s.setDigest g).dlv = s.dlv := rfl
@[simp] theorem State.setDigest_sndRx (s : State) (g : ByteString) : (s.setDigest g).sndRx = s.sndRx := rfl
@[simp] theorem State.setDigest_rcvRx (s : State) (g : ByteString) : (s.setDigest g).rcvRx = s.rcvRx := rfl
@[simp] theorem State.setDigest_sched (s : State) (g : ByteString) : (s.setDigest g).sched = s.sched := rfl
@[simp] theorem State.setDigest_hostReads (s : State) (g : ByteString) :
    (s.setDigest g).hostReads = s.hostReads := rfl
@[simp] theorem State.setDigest_draw (s : State) (g : ByteString) : (s.setDigest g).draw = s.draw := rfl

/-! ### State.output -/

@[simp] theorem State.output_cfg (s : State) (v : ByteString) : (s.output v).cfg = s.cfg := rfl
@[simp] theorem State.output_arg (s : State) (v : ByteString) : (s.output v).arg = s.arg := rfl
@[simp] theorem State.output_result (s : State) (v : ByteString) : (s.output v).result = s.result := rfl
@[simp] theorem State.output_err (s : State) (v : ByteString) : (s.output v).err = s.err := rfl
@[simp] theorem State.output_inLen (s : State) (v : ByteString) : (s.output v).inLen = s.inLen := rfl
@[simp] theorem State.output_outLen (s : State) (v : ByteString) :
    (s.output v).outLen = toWord v.length := rfl
@[simp] theorem State.output_plen (s : State) (v : ByteString) : (s.output v).plen = s.plen := rfl
@[simp] theorem State.output_dgst (s : State) (v : ByteString) : (s.output v).dgst = s.dgst := rfl
@[simp] theorem State.output_ibuf (s : State) (v : ByteString) : (s.output v).ibuf = s.ibuf := rfl
@[simp] theorem State.output_obuf (s : State) (v : ByteString) :
    (s.output v).obuf = Memory.writeBytes s.obuf 0 v := rfl
@[simp] theorem State.output_pmem (s : State) (v : ByteString) : (s.output v).pmem = s.pmem := rfl
@[simp] theorem State.output_snd (s : State) (v : ByteString) : (s.output v).snd = s.snd := rfl
@[simp] theorem State.output_rcv (s : State) (v : ByteString) : (s.output v).rcv = s.rcv := rfl
@[simp] theorem State.output_sndTx (s : State) (v : ByteString) : (s.output v).sndTx = s.sndTx := rfl
@[simp] theorem State.output_rcvTx (s : State) (v : ByteString) : (s.output v).rcvTx = s.rcvTx := rfl
@[simp] theorem State.output_dlv (s : State) (v : ByteString) : (s.output v).dlv = s.dlv := rfl
@[simp] theorem State.output_sndRx (s : State) (v : ByteString) : (s.output v).sndRx = s.sndRx := rfl
@[simp] theorem State.output_rcvRx (s : State) (v : ByteString) : (s.output v).rcvRx = s.rcvRx := rfl
@[simp] theorem State.output_sched (s : State) (v : ByteString) : (s.output v).sched = s.sched := rfl
@[simp] theorem State.output_hostReads (s : State) (v : ByteString) :
    (s.output v).hostReads = s.hostReads := rfl
@[simp] theorem State.output_draw (s : State) (v : ByteString) : (s.output v).draw = s.draw := rfl

/-! ### State.sendSnd -/

@[simp] theorem State.sendSnd_cfg (s : State) (m : ByteString) : (s.sendSnd m).cfg = s.cfg := rfl
@[simp] theorem State.sendSnd_arg (s : State) (m : ByteString) : (s.sendSnd m).arg = s.arg := rfl
@[simp] theorem State.sendSnd_result (s : State) (m : ByteString) : (s.sendSnd m).result = s.result := rfl
@[simp] theorem State.sendSnd_err (s : State) (m : ByteString) : (s.sendSnd m).err = s.err := rfl
@[simp] theorem State.sendSnd_inLen (s : State) (m : ByteString) : (s.sendSnd m).inLen = s.inLen := rfl
@[simp] theorem State.sendSnd_outLen (s : State) (m : ByteString) : (s.sendSnd m).outLen = s.outLen := rfl
@[simp] theorem State.sendSnd_plen (s : State) (m : ByteString) : (s.sendSnd m).plen = s.plen := rfl
@[simp] theorem State.sendSnd_dgst (s : State) (m : ByteString) : (s.sendSnd m).dgst = s.dgst := rfl
@[simp] theorem State.sendSnd_ibuf (s : State) (m : ByteString) : (s.sendSnd m).ibuf = s.ibuf := rfl
@[simp] theorem State.sendSnd_obuf (s : State) (m : ByteString) : (s.sendSnd m).obuf = s.obuf := rfl
@[simp] theorem State.sendSnd_pmem (s : State) (m : ByteString) : (s.sendSnd m).pmem = s.pmem := rfl
@[simp] theorem State.sendSnd_snd (s : State) (m : ByteString) : (s.sendSnd m).snd = s.snd := rfl
@[simp] theorem State.sendSnd_rcv (s : State) (m : ByteString) : (s.sendSnd m).rcv = s.rcv := rfl
@[simp] theorem State.sendSnd_sndTx (s : State) (m : ByteString) : (s.sendSnd m).sndTx = s.sndTx ++ [m] := rfl
@[simp] theorem State.sendSnd_rcvTx (s : State) (m : ByteString) : (s.sendSnd m).rcvTx = s.rcvTx := rfl
@[simp] theorem State.sendSnd_dlv (s : State) (m : ByteString) : (s.sendSnd m).dlv = s.dlv := rfl
@[simp] theorem State.sendSnd_sndRx (s : State) (m : ByteString) : (s.sendSnd m).sndRx = s.sndRx := rfl
@[simp] theorem State.sendSnd_rcvRx (s : State) (m : ByteString) : (s.sendSnd m).rcvRx = s.rcvRx := rfl
@[simp] theorem State.sendSnd_sched (s : State) (m : ByteString) : (s.sendSnd m).sched = s.sched := rfl
@[simp] theorem State.sendSnd_hostReads (s : State) (m : ByteString) :
    (s.sendSnd m).hostReads = s.hostReads := rfl
@[simp] theorem State.sendSnd_draw (s : State) (m : ByteString) : (s.sendSnd m).draw = s.draw := rfl

/-! ### State.sendRcv -/

@[simp] theorem State.sendRcv_cfg (s : State) (m : ByteString) : (s.sendRcv m).cfg = s.cfg := rfl
@[simp] theorem State.sendRcv_arg (s : State) (m : ByteString) : (s.sendRcv m).arg = s.arg := rfl
@[simp] theorem State.sendRcv_result (s : State) (m : ByteString) : (s.sendRcv m).result = s.result := rfl
@[simp] theorem State.sendRcv_err (s : State) (m : ByteString) : (s.sendRcv m).err = s.err := rfl
@[simp] theorem State.sendRcv_inLen (s : State) (m : ByteString) : (s.sendRcv m).inLen = s.inLen := rfl
@[simp] theorem State.sendRcv_outLen (s : State) (m : ByteString) : (s.sendRcv m).outLen = s.outLen := rfl
@[simp] theorem State.sendRcv_plen (s : State) (m : ByteString) : (s.sendRcv m).plen = s.plen := rfl
@[simp] theorem State.sendRcv_dgst (s : State) (m : ByteString) : (s.sendRcv m).dgst = s.dgst := rfl
@[simp] theorem State.sendRcv_ibuf (s : State) (m : ByteString) : (s.sendRcv m).ibuf = s.ibuf := rfl
@[simp] theorem State.sendRcv_obuf (s : State) (m : ByteString) : (s.sendRcv m).obuf = s.obuf := rfl
@[simp] theorem State.sendRcv_pmem (s : State) (m : ByteString) : (s.sendRcv m).pmem = s.pmem := rfl
@[simp] theorem State.sendRcv_snd (s : State) (m : ByteString) : (s.sendRcv m).snd = s.snd := rfl
@[simp] theorem State.sendRcv_rcv (s : State) (m : ByteString) : (s.sendRcv m).rcv = s.rcv := rfl
@[simp] theorem State.sendRcv_sndTx (s : State) (m : ByteString) : (s.sendRcv m).sndTx = s.sndTx := rfl
@[simp] theorem State.sendRcv_rcvTx (s : State) (m : ByteString) : (s.sendRcv m).rcvTx = s.rcvTx ++ [m] := rfl
@[simp] theorem State.sendRcv_dlv (s : State) (m : ByteString) : (s.sendRcv m).dlv = s.dlv := rfl
@[simp] theorem State.sendRcv_sndRx (s : State) (m : ByteString) : (s.sendRcv m).sndRx = s.sndRx := rfl
@[simp] theorem State.sendRcv_rcvRx (s : State) (m : ByteString) : (s.sendRcv m).rcvRx = s.rcvRx := rfl
@[simp] theorem State.sendRcv_sched (s : State) (m : ByteString) : (s.sendRcv m).sched = s.sched := rfl
@[simp] theorem State.sendRcv_hostReads (s : State) (m : ByteString) :
    (s.sendRcv m).hostReads = s.hostReads := rfl
@[simp] theorem State.sendRcv_draw (s : State) (m : ByteString) : (s.sendRcv m).draw = s.draw := rfl

/-! ### State.deliver -/

@[simp] theorem State.deliver_cfg (s : State) (p : ByteString) : (s.deliver p).cfg = s.cfg := rfl
@[simp] theorem State.deliver_arg (s : State) (p : ByteString) : (s.deliver p).arg = s.arg := rfl
@[simp] theorem State.deliver_result (s : State) (p : ByteString) : (s.deliver p).result = s.result := rfl
@[simp] theorem State.deliver_err (s : State) (p : ByteString) : (s.deliver p).err = s.err := rfl
@[simp] theorem State.deliver_inLen (s : State) (p : ByteString) : (s.deliver p).inLen = s.inLen := rfl
@[simp] theorem State.deliver_outLen (s : State) (p : ByteString) : (s.deliver p).outLen = s.outLen := rfl
@[simp] theorem State.deliver_plen (s : State) (p : ByteString) : (s.deliver p).plen = s.plen := rfl
@[simp] theorem State.deliver_dgst (s : State) (p : ByteString) : (s.deliver p).dgst = s.dgst := rfl
@[simp] theorem State.deliver_ibuf (s : State) (p : ByteString) : (s.deliver p).ibuf = s.ibuf := rfl
@[simp] theorem State.deliver_obuf (s : State) (p : ByteString) : (s.deliver p).obuf = s.obuf := rfl
@[simp] theorem State.deliver_pmem (s : State) (p : ByteString) : (s.deliver p).pmem = s.pmem := rfl
@[simp] theorem State.deliver_snd (s : State) (p : ByteString) : (s.deliver p).snd = s.snd := rfl
@[simp] theorem State.deliver_rcv (s : State) (p : ByteString) : (s.deliver p).rcv = s.rcv := rfl
@[simp] theorem State.deliver_sndTx (s : State) (p : ByteString) : (s.deliver p).sndTx = s.sndTx := rfl
@[simp] theorem State.deliver_rcvTx (s : State) (p : ByteString) : (s.deliver p).rcvTx = s.rcvTx := rfl
@[simp] theorem State.deliver_dlv (s : State) (p : ByteString) : (s.deliver p).dlv = s.dlv ++ [p] := rfl
@[simp] theorem State.deliver_sndRx (s : State) (p : ByteString) : (s.deliver p).sndRx = s.sndRx := rfl
@[simp] theorem State.deliver_rcvRx (s : State) (p : ByteString) : (s.deliver p).rcvRx = s.rcvRx := rfl
@[simp] theorem State.deliver_sched (s : State) (p : ByteString) : (s.deliver p).sched = s.sched := rfl
@[simp] theorem State.deliver_hostReads (s : State) (p : ByteString) :
    (s.deliver p).hostReads = s.hostReads := rfl
@[simp] theorem State.deliver_draw (s : State) (p : ByteString) : (s.deliver p).draw = s.draw := rfl

/-! ### abortSender -/

@[simp] theorem abortSender_cfg (c : AbortCause) (s : State) : (abortSender c s).cfg = s.cfg := rfl
@[simp] theorem abortSender_arg (c : AbortCause) (s : State) : (abortSender c s).arg = s.arg := rfl
@[simp] theorem abortSender_result (c : AbortCause) (s : State) : (abortSender c s).result = s.result := rfl
@[simp] theorem abortSender_err (c : AbortCause) (s : State) : (abortSender c s).err = s.err := rfl
@[simp] theorem abortSender_inLen (c : AbortCause) (s : State) : (abortSender c s).inLen = s.inLen := rfl
@[simp] theorem abortSender_outLen (c : AbortCause) (s : State) : (abortSender c s).outLen = s.outLen := rfl
@[simp] theorem abortSender_plen (c : AbortCause) (s : State) : (abortSender c s).plen = s.plen := rfl
@[simp] theorem abortSender_dgst (c : AbortCause) (s : State) : (abortSender c s).dgst = s.dgst := rfl
@[simp] theorem abortSender_ibuf (c : AbortCause) (s : State) : (abortSender c s).ibuf = s.ibuf := rfl
@[simp] theorem abortSender_obuf (c : AbortCause) (s : State) : (abortSender c s).obuf = s.obuf := rfl
@[simp] theorem abortSender_pmem (c : AbortCause) (s : State) : (abortSender c s).pmem = s.pmem := rfl
@[simp] theorem abortSender_snd (c : AbortCause) (s : State) :
    (abortSender c s).snd = { s.snd with state := .aborted, cause := c } := rfl
@[simp] theorem abortSender_rcv (c : AbortCause) (s : State) : (abortSender c s).rcv = s.rcv := rfl
@[simp] theorem abortSender_sndTx (c : AbortCause) (s : State) : (abortSender c s).sndTx = s.sndTx := rfl
@[simp] theorem abortSender_rcvTx (c : AbortCause) (s : State) : (abortSender c s).rcvTx = s.rcvTx := rfl
@[simp] theorem abortSender_dlv (c : AbortCause) (s : State) : (abortSender c s).dlv = s.dlv := rfl
@[simp] theorem abortSender_sndRx (c : AbortCause) (s : State) : (abortSender c s).sndRx = s.sndRx := rfl
@[simp] theorem abortSender_rcvRx (c : AbortCause) (s : State) : (abortSender c s).rcvRx = s.rcvRx := rfl
@[simp] theorem abortSender_sched (c : AbortCause) (s : State) : (abortSender c s).sched = s.sched := rfl
@[simp] theorem abortSender_hostReads (c : AbortCause) (s : State) :
    (abortSender c s).hostReads = s.hostReads := rfl
@[simp] theorem abortSender_draw (c : AbortCause) (s : State) : (abortSender c s).draw = s.draw := rfl

/-! ### abortReceiver -/

@[simp] theorem abortReceiver_cfg (c : AbortCause) (s : State) : (abortReceiver c s).cfg = s.cfg := rfl
@[simp] theorem abortReceiver_arg (c : AbortCause) (s : State) : (abortReceiver c s).arg = s.arg := rfl
@[simp] theorem abortReceiver_result (c : AbortCause) (s : State) :
    (abortReceiver c s).result = s.result := rfl
@[simp] theorem abortReceiver_err (c : AbortCause) (s : State) : (abortReceiver c s).err = s.err := rfl
@[simp] theorem abortReceiver_inLen (c : AbortCause) (s : State) : (abortReceiver c s).inLen = s.inLen := rfl
@[simp] theorem abortReceiver_outLen (c : AbortCause) (s : State) :
    (abortReceiver c s).outLen = s.outLen := rfl
@[simp] theorem abortReceiver_plen (c : AbortCause) (s : State) : (abortReceiver c s).plen = s.plen := rfl
@[simp] theorem abortReceiver_dgst (c : AbortCause) (s : State) : (abortReceiver c s).dgst = s.dgst := rfl
@[simp] theorem abortReceiver_ibuf (c : AbortCause) (s : State) : (abortReceiver c s).ibuf = s.ibuf := rfl
@[simp] theorem abortReceiver_obuf (c : AbortCause) (s : State) : (abortReceiver c s).obuf = s.obuf := rfl
@[simp] theorem abortReceiver_pmem (c : AbortCause) (s : State) : (abortReceiver c s).pmem = s.pmem := rfl
@[simp] theorem abortReceiver_snd (c : AbortCause) (s : State) : (abortReceiver c s).snd = s.snd := rfl
@[simp] theorem abortReceiver_rcv (c : AbortCause) (s : State) :
    (abortReceiver c s).rcv = { s.rcv with state := .aborted, cause := c } := rfl
@[simp] theorem abortReceiver_sndTx (c : AbortCause) (s : State) : (abortReceiver c s).sndTx = s.sndTx := rfl
@[simp] theorem abortReceiver_rcvTx (c : AbortCause) (s : State) : (abortReceiver c s).rcvTx = s.rcvTx := rfl
@[simp] theorem abortReceiver_dlv (c : AbortCause) (s : State) : (abortReceiver c s).dlv = s.dlv := rfl
@[simp] theorem abortReceiver_sndRx (c : AbortCause) (s : State) : (abortReceiver c s).sndRx = s.sndRx := rfl
@[simp] theorem abortReceiver_rcvRx (c : AbortCause) (s : State) : (abortReceiver c s).rcvRx = s.rcvRx := rfl
@[simp] theorem abortReceiver_sched (c : AbortCause) (s : State) : (abortReceiver c s).sched = s.sched := rfl
@[simp] theorem abortReceiver_hostReads (c : AbortCause) (s : State) :
    (abortReceiver c s).hostReads = s.hostReads := rfl
@[simp] theorem abortReceiver_draw (c : AbortCause) (s : State) : (abortReceiver c s).draw = s.draw := rfl

/-! ### State.answer -/

@[simp] theorem State.answer_cfg (s : State) (v : ReadValue) : (s.answer v).cfg = s.cfg := rfl
@[simp] theorem State.answer_arg (s : State) (v : ReadValue) : (s.answer v).arg = s.arg := rfl
@[simp] theorem State.answer_result (s : State) (v : ReadValue) : (s.answer v).result = s.result := rfl
@[simp] theorem State.answer_err (s : State) (v : ReadValue) : (s.answer v).err = s.err := rfl
@[simp] theorem State.answer_inLen (s : State) (v : ReadValue) : (s.answer v).inLen = s.inLen := rfl
@[simp] theorem State.answer_outLen (s : State) (v : ReadValue) : (s.answer v).outLen = s.outLen := rfl
@[simp] theorem State.answer_plen (s : State) (v : ReadValue) : (s.answer v).plen = s.plen := rfl
@[simp] theorem State.answer_dgst (s : State) (v : ReadValue) : (s.answer v).dgst = s.dgst := rfl
@[simp] theorem State.answer_ibuf (s : State) (v : ReadValue) : (s.answer v).ibuf = s.ibuf := rfl
@[simp] theorem State.answer_obuf (s : State) (v : ReadValue) : (s.answer v).obuf = s.obuf := rfl
@[simp] theorem State.answer_pmem (s : State) (v : ReadValue) : (s.answer v).pmem = s.pmem := rfl
@[simp] theorem State.answer_snd (s : State) (v : ReadValue) : (s.answer v).snd = s.snd := rfl
@[simp] theorem State.answer_rcv (s : State) (v : ReadValue) : (s.answer v).rcv = s.rcv := rfl
@[simp] theorem State.answer_sndTx (s : State) (v : ReadValue) : (s.answer v).sndTx = s.sndTx := rfl
@[simp] theorem State.answer_rcvTx (s : State) (v : ReadValue) : (s.answer v).rcvTx = s.rcvTx := rfl
@[simp] theorem State.answer_dlv (s : State) (v : ReadValue) : (s.answer v).dlv = s.dlv := rfl
@[simp] theorem State.answer_sndRx (s : State) (v : ReadValue) : (s.answer v).sndRx = s.sndRx := rfl
@[simp] theorem State.answer_rcvRx (s : State) (v : ReadValue) : (s.answer v).rcvRx = s.rcvRx := rfl
@[simp] theorem State.answer_sched (s : State) (v : ReadValue) : (s.answer v).sched = s.sched := rfl
@[simp] theorem State.answer_hostReads (s : State) (v : ReadValue) :
    (s.answer v).hostReads = s.hostReads ++ [v] := rfl
@[simp] theorem State.answer_draw (s : State) (v : ReadValue) : (s.answer v).draw = s.draw := rfl

/-! ### State.writeBytes_ibuf -/

@[simp] theorem State.writeBytes_ibuf_cfg (s : State) (a : Nat) (v : ByteString) :
    (s.writeBytes .ibuf a v).cfg = s.cfg := rfl
@[simp] theorem State.writeBytes_ibuf_arg (s : State) (a : Nat) (v : ByteString) :
    (s.writeBytes .ibuf a v).arg = s.arg := rfl
@[simp] theorem State.writeBytes_ibuf_result (s : State) (a : Nat) (v : ByteString) :
    (s.writeBytes .ibuf a v).result = s.result := rfl
@[simp] theorem State.writeBytes_ibuf_err (s : State) (a : Nat) (v : ByteString) :
    (s.writeBytes .ibuf a v).err = s.err := rfl
@[simp] theorem State.writeBytes_ibuf_inLen (s : State) (a : Nat) (v : ByteString) :
    (s.writeBytes .ibuf a v).inLen = s.inLen := rfl
@[simp] theorem State.writeBytes_ibuf_outLen (s : State) (a : Nat) (v : ByteString) :
    (s.writeBytes .ibuf a v).outLen = s.outLen := rfl
@[simp] theorem State.writeBytes_ibuf_plen (s : State) (a : Nat) (v : ByteString) :
    (s.writeBytes .ibuf a v).plen = s.plen := rfl
@[simp] theorem State.writeBytes_ibuf_dgst (s : State) (a : Nat) (v : ByteString) :
    (s.writeBytes .ibuf a v).dgst = s.dgst := rfl
@[simp] theorem State.writeBytes_ibuf_ibuf (s : State) (a : Nat) (v : ByteString) :
    (s.writeBytes .ibuf a v).ibuf = Memory.writeBytes s.ibuf a v := rfl
@[simp] theorem State.writeBytes_ibuf_obuf (s : State) (a : Nat) (v : ByteString) :
    (s.writeBytes .ibuf a v).obuf = s.obuf := rfl
@[simp] theorem State.writeBytes_ibuf_pmem (s : State) (a : Nat) (v : ByteString) :
    (s.writeBytes .ibuf a v).pmem = s.pmem := rfl
@[simp] theorem State.writeBytes_ibuf_snd (s : State) (a : Nat) (v : ByteString) :
    (s.writeBytes .ibuf a v).snd = s.snd := rfl
@[simp] theorem State.writeBytes_ibuf_rcv (s : State) (a : Nat) (v : ByteString) :
    (s.writeBytes .ibuf a v).rcv = s.rcv := rfl
@[simp] theorem State.writeBytes_ibuf_sndTx (s : State) (a : Nat) (v : ByteString) :
    (s.writeBytes .ibuf a v).sndTx = s.sndTx := rfl
@[simp] theorem State.writeBytes_ibuf_rcvTx (s : State) (a : Nat) (v : ByteString) :
    (s.writeBytes .ibuf a v).rcvTx = s.rcvTx := rfl
@[simp] theorem State.writeBytes_ibuf_dlv (s : State) (a : Nat) (v : ByteString) :
    (s.writeBytes .ibuf a v).dlv = s.dlv := rfl
@[simp] theorem State.writeBytes_ibuf_sndRx (s : State) (a : Nat) (v : ByteString) :
    (s.writeBytes .ibuf a v).sndRx = s.sndRx := rfl
@[simp] theorem State.writeBytes_ibuf_rcvRx (s : State) (a : Nat) (v : ByteString) :
    (s.writeBytes .ibuf a v).rcvRx = s.rcvRx := rfl
@[simp] theorem State.writeBytes_ibuf_sched (s : State) (a : Nat) (v : ByteString) :
    (s.writeBytes .ibuf a v).sched = s.sched := rfl
@[simp] theorem State.writeBytes_ibuf_hostReads (s : State) (a : Nat) (v : ByteString) :
    (s.writeBytes .ibuf a v).hostReads = s.hostReads := rfl
@[simp] theorem State.writeBytes_ibuf_draw (s : State) (a : Nat) (v : ByteString) :
    (s.writeBytes .ibuf a v).draw = s.draw := rfl

/-! ### State.writeBytes_pmem -/

@[simp] theorem State.writeBytes_pmem_cfg (s : State) (a : Nat) (v : ByteString) :
    (s.writeBytes .pmem a v).cfg = s.cfg := rfl
@[simp] theorem State.writeBytes_pmem_arg (s : State) (a : Nat) (v : ByteString) :
    (s.writeBytes .pmem a v).arg = s.arg := rfl
@[simp] theorem State.writeBytes_pmem_result (s : State) (a : Nat) (v : ByteString) :
    (s.writeBytes .pmem a v).result = s.result := rfl
@[simp] theorem State.writeBytes_pmem_err (s : State) (a : Nat) (v : ByteString) :
    (s.writeBytes .pmem a v).err = s.err := rfl
@[simp] theorem State.writeBytes_pmem_inLen (s : State) (a : Nat) (v : ByteString) :
    (s.writeBytes .pmem a v).inLen = s.inLen := rfl
@[simp] theorem State.writeBytes_pmem_outLen (s : State) (a : Nat) (v : ByteString) :
    (s.writeBytes .pmem a v).outLen = s.outLen := rfl
@[simp] theorem State.writeBytes_pmem_plen (s : State) (a : Nat) (v : ByteString) :
    (s.writeBytes .pmem a v).plen = s.plen := rfl
@[simp] theorem State.writeBytes_pmem_dgst (s : State) (a : Nat) (v : ByteString) :
    (s.writeBytes .pmem a v).dgst = s.dgst := rfl
@[simp] theorem State.writeBytes_pmem_ibuf (s : State) (a : Nat) (v : ByteString) :
    (s.writeBytes .pmem a v).ibuf = s.ibuf := rfl
@[simp] theorem State.writeBytes_pmem_obuf (s : State) (a : Nat) (v : ByteString) :
    (s.writeBytes .pmem a v).obuf = s.obuf := rfl
@[simp] theorem State.writeBytes_pmem_pmem (s : State) (a : Nat) (v : ByteString) :
    (s.writeBytes .pmem a v).pmem = Memory.writeBytes s.pmem a v := rfl
@[simp] theorem State.writeBytes_pmem_snd (s : State) (a : Nat) (v : ByteString) :
    (s.writeBytes .pmem a v).snd = s.snd := rfl
@[simp] theorem State.writeBytes_pmem_rcv (s : State) (a : Nat) (v : ByteString) :
    (s.writeBytes .pmem a v).rcv = s.rcv := rfl
@[simp] theorem State.writeBytes_pmem_sndTx (s : State) (a : Nat) (v : ByteString) :
    (s.writeBytes .pmem a v).sndTx = s.sndTx := rfl
@[simp] theorem State.writeBytes_pmem_rcvTx (s : State) (a : Nat) (v : ByteString) :
    (s.writeBytes .pmem a v).rcvTx = s.rcvTx := rfl
@[simp] theorem State.writeBytes_pmem_dlv (s : State) (a : Nat) (v : ByteString) :
    (s.writeBytes .pmem a v).dlv = s.dlv := rfl
@[simp] theorem State.writeBytes_pmem_sndRx (s : State) (a : Nat) (v : ByteString) :
    (s.writeBytes .pmem a v).sndRx = s.sndRx := rfl
@[simp] theorem State.writeBytes_pmem_rcvRx (s : State) (a : Nat) (v : ByteString) :
    (s.writeBytes .pmem a v).rcvRx = s.rcvRx := rfl
@[simp] theorem State.writeBytes_pmem_sched (s : State) (a : Nat) (v : ByteString) :
    (s.writeBytes .pmem a v).sched = s.sched := rfl
@[simp] theorem State.writeBytes_pmem_hostReads (s : State) (a : Nat) (v : ByteString) :
    (s.writeBytes .pmem a v).hostReads = s.hostReads := rfl
@[simp] theorem State.writeBytes_pmem_draw (s : State) (a : Nat) (v : ByteString) :
    (s.writeBytes .pmem a v).draw = s.draw := rfl

/-! ### State.writeBytes_obuf -/

@[simp] theorem State.writeBytes_obuf_cfg (s : State) (a : Nat) (v : ByteString) :
    (s.writeBytes .obuf a v).cfg = s.cfg := rfl
@[simp] theorem State.writeBytes_obuf_arg (s : State) (a : Nat) (v : ByteString) :
    (s.writeBytes .obuf a v).arg = s.arg := rfl
@[simp] theorem State.writeBytes_obuf_result (s : State) (a : Nat) (v : ByteString) :
    (s.writeBytes .obuf a v).result = s.result := rfl
@[simp] theorem State.writeBytes_obuf_err (s : State) (a : Nat) (v : ByteString) :
    (s.writeBytes .obuf a v).err = s.err := rfl
@[simp] theorem State.writeBytes_obuf_inLen (s : State) (a : Nat) (v : ByteString) :
    (s.writeBytes .obuf a v).inLen = s.inLen := rfl
@[simp] theorem State.writeBytes_obuf_outLen (s : State) (a : Nat) (v : ByteString) :
    (s.writeBytes .obuf a v).outLen = s.outLen := rfl
@[simp] theorem State.writeBytes_obuf_plen (s : State) (a : Nat) (v : ByteString) :
    (s.writeBytes .obuf a v).plen = s.plen := rfl
@[simp] theorem State.writeBytes_obuf_dgst (s : State) (a : Nat) (v : ByteString) :
    (s.writeBytes .obuf a v).dgst = s.dgst := rfl
@[simp] theorem State.writeBytes_obuf_ibuf (s : State) (a : Nat) (v : ByteString) :
    (s.writeBytes .obuf a v).ibuf = s.ibuf := rfl
@[simp] theorem State.writeBytes_obuf_obuf (s : State) (a : Nat) (v : ByteString) :
    (s.writeBytes .obuf a v).obuf = Memory.writeBytes s.obuf a v := rfl
@[simp] theorem State.writeBytes_obuf_pmem (s : State) (a : Nat) (v : ByteString) :
    (s.writeBytes .obuf a v).pmem = s.pmem := rfl
@[simp] theorem State.writeBytes_obuf_snd (s : State) (a : Nat) (v : ByteString) :
    (s.writeBytes .obuf a v).snd = s.snd := rfl
@[simp] theorem State.writeBytes_obuf_rcv (s : State) (a : Nat) (v : ByteString) :
    (s.writeBytes .obuf a v).rcv = s.rcv := rfl
@[simp] theorem State.writeBytes_obuf_sndTx (s : State) (a : Nat) (v : ByteString) :
    (s.writeBytes .obuf a v).sndTx = s.sndTx := rfl
@[simp] theorem State.writeBytes_obuf_rcvTx (s : State) (a : Nat) (v : ByteString) :
    (s.writeBytes .obuf a v).rcvTx = s.rcvTx := rfl
@[simp] theorem State.writeBytes_obuf_dlv (s : State) (a : Nat) (v : ByteString) :
    (s.writeBytes .obuf a v).dlv = s.dlv := rfl
@[simp] theorem State.writeBytes_obuf_sndRx (s : State) (a : Nat) (v : ByteString) :
    (s.writeBytes .obuf a v).sndRx = s.sndRx := rfl
@[simp] theorem State.writeBytes_obuf_rcvRx (s : State) (a : Nat) (v : ByteString) :
    (s.writeBytes .obuf a v).rcvRx = s.rcvRx := rfl
@[simp] theorem State.writeBytes_obuf_sched (s : State) (a : Nat) (v : ByteString) :
    (s.writeBytes .obuf a v).sched = s.sched := rfl
@[simp] theorem State.writeBytes_obuf_hostReads (s : State) (a : Nat) (v : ByteString) :
    (s.writeBytes .obuf a v).hostReads = s.hostReads := rfl
@[simp] theorem State.writeBytes_obuf_draw (s : State) (a : Nat) (v : ByteString) :
    (s.writeBytes .obuf a v).draw = s.draw := rfl

/-! ### State.writeBytes_frame -/

@[simp] theorem State.writeBytes_frame_cfg (s : State) (a : Nat) (v : ByteString) :
    (s.writeBytes .frame a v).cfg = s.cfg := rfl
@[simp] theorem State.writeBytes_frame_arg (s : State) (a : Nat) (v : ByteString) :
    (s.writeBytes .frame a v).arg = s.arg := rfl
@[simp] theorem State.writeBytes_frame_result (s : State) (a : Nat) (v : ByteString) :
    (s.writeBytes .frame a v).result = s.result := rfl
@[simp] theorem State.writeBytes_frame_err (s : State) (a : Nat) (v : ByteString) :
    (s.writeBytes .frame a v).err = s.err := rfl
@[simp] theorem State.writeBytes_frame_inLen (s : State) (a : Nat) (v : ByteString) :
    (s.writeBytes .frame a v).inLen = s.inLen := rfl
@[simp] theorem State.writeBytes_frame_outLen (s : State) (a : Nat) (v : ByteString) :
    (s.writeBytes .frame a v).outLen = s.outLen := rfl
@[simp] theorem State.writeBytes_frame_plen (s : State) (a : Nat) (v : ByteString) :
    (s.writeBytes .frame a v).plen = s.plen := rfl
@[simp] theorem State.writeBytes_frame_dgst (s : State) (a : Nat) (v : ByteString) :
    (s.writeBytes .frame a v).dgst = s.dgst := rfl
@[simp] theorem State.writeBytes_frame_ibuf (s : State) (a : Nat) (v : ByteString) :
    (s.writeBytes .frame a v).ibuf = s.ibuf := rfl
@[simp] theorem State.writeBytes_frame_obuf (s : State) (a : Nat) (v : ByteString) :
    (s.writeBytes .frame a v).obuf = s.obuf := rfl
@[simp] theorem State.writeBytes_frame_pmem (s : State) (a : Nat) (v : ByteString) :
    (s.writeBytes .frame a v).pmem = s.pmem := rfl
@[simp] theorem State.writeBytes_frame_snd (s : State) (a : Nat) (v : ByteString) :
    (s.writeBytes .frame a v).snd = { s.snd with frame := Memory.writeBytes s.snd.frame a v } := rfl
@[simp] theorem State.writeBytes_frame_rcv (s : State) (a : Nat) (v : ByteString) :
    (s.writeBytes .frame a v).rcv = s.rcv := rfl
@[simp] theorem State.writeBytes_frame_sndTx (s : State) (a : Nat) (v : ByteString) :
    (s.writeBytes .frame a v).sndTx = s.sndTx := rfl
@[simp] theorem State.writeBytes_frame_rcvTx (s : State) (a : Nat) (v : ByteString) :
    (s.writeBytes .frame a v).rcvTx = s.rcvTx := rfl
@[simp] theorem State.writeBytes_frame_dlv (s : State) (a : Nat) (v : ByteString) :
    (s.writeBytes .frame a v).dlv = s.dlv := rfl
@[simp] theorem State.writeBytes_frame_sndRx (s : State) (a : Nat) (v : ByteString) :
    (s.writeBytes .frame a v).sndRx = s.sndRx := rfl
@[simp] theorem State.writeBytes_frame_rcvRx (s : State) (a : Nat) (v : ByteString) :
    (s.writeBytes .frame a v).rcvRx = s.rcvRx := rfl
@[simp] theorem State.writeBytes_frame_sched (s : State) (a : Nat) (v : ByteString) :
    (s.writeBytes .frame a v).sched = s.sched := rfl
@[simp] theorem State.writeBytes_frame_hostReads (s : State) (a : Nat) (v : ByteString) :
    (s.writeBytes .frame a v).hostReads = s.hostReads := rfl
@[simp] theorem State.writeBytes_frame_draw (s : State) (a : Nat) (v : ByteString) :
    (s.writeBytes .frame a v).draw = s.draw := rfl

/-! ### The storages as one family -/

@[simp] theorem State.mem_ibuf (s : State) : s.mem .ibuf = s.ibuf := rfl
@[simp] theorem State.mem_obuf (s : State) : s.mem .obuf = s.obuf := rfl
@[simp] theorem State.mem_pmem (s : State) : s.mem .pmem = s.pmem := rfl
@[simp] theorem State.mem_frame (s : State) : s.mem .frame = s.snd.frame := rfl

end Sys2Proof.Machine
end

