-- ==== Sys2Proof/Laws/Ops.lean ====
section
/-!
SUPPORT. What each shared operation does, said once: storage (read after write, canonical form, size),
the two ends of a command, and the event decoding of the ports.
-/

namespace Sys2Proof.Machine

open Sys2Proof

/-! ### Storage -/

theorem Memory.lookup_write (m : Memory) (x : Nat) (v : Byte) (y : Nat) :
    Memory.lookup (Memory.write m x v) y = if y = x then some v else Memory.lookup m y := by
  induction m with
  | nil => simp [Memory.write, Memory.lookup]
  | cons c m ih =>
    obtain ⟨a, b⟩ := c
    rw [Memory.write]
    by_cases h1 : x < a
    · simp only [h1, if_true, Memory.lookup]
    · by_cases h2 : x = a
      · subst h2
        by_cases hy : y = x <;> simp [Memory.lookup, hy]
      · simp only [h1, h2, if_false, Memory.lookup, ih]
        by_cases hy : y = a
        · have : y ≠ x := by omega
          simp [hy]
          omega
        · simp [hy]

theorem Memory.lookup_writeBytes (m : Memory) (x : Nat) (v : ByteString) (y : Nat) :
    Memory.lookup (Memory.writeBytes m x v) y =
      if x ≤ y ∧ y < x + v.length then v[y - x]? else Memory.lookup m y := by
  induction v generalizing m x with
  | nil =>
    have : ¬(x ≤ y ∧ y < x + ([] : ByteString).length) := by simp
    rw [if_neg this]; rfl
  | cons b v ih =>
    rw [Memory.writeBytes, ih, Memory.lookup_write]
    by_cases hy : y = x
    · subst hy; simp
    · by_cases hin : x + 1 ≤ y ∧ y < x + 1 + v.length
      · have h2 : x ≤ y ∧ y < x + (b :: v).length := by simp only [List.length_cons]; omega
        have h3 : y - x = (y - (x + 1)) + 1 := by omega
        rw [if_pos hin, if_pos h2, h3, List.getElem?_cons_succ]
      · have h2 : ¬(x ≤ y ∧ y < x + (b :: v).length) := by simp only [List.length_cons]; omega
        rw [if_neg hin, if_neg h2, if_neg hy]

/-- Every listed address is above `lo`. -/
def Memory.above (lo : Nat) (m : Memory) : Prop := ∀ c ∈ m, lo < c.1

theorem Memory.wf_cons (a : Nat) (b : Byte) (m : Memory) :
    Memory.wf ((a, b) :: m) = true ↔ Memory.above a m ∧ Memory.wf m = true := by
  induction m generalizing a b with
  | nil => simp [Memory.wf, Memory.above]
  | cons c m ih =>
    obtain ⟨a', b'⟩ := c
    simp only [Memory.wf, Bool.and_eq_true, decide_eq_true_eq]
    constructor
    · rintro ⟨h1, h2⟩
      refine ⟨?_, h2⟩
      have h3 := ((ih a' b').1 h2).1
      intro c hc
      rcases List.mem_cons.1 hc with rfl | hc
      · exact h1
      · exact lt_trans h1 (h3 c hc)
    · rintro ⟨h1, h2⟩
      exact ⟨h1 _ (List.mem_cons_self ..), h2⟩

theorem Memory.above_write {lo : Nat} {m : Memory} {x : Nat} (v : Byte) (h : Memory.above lo m)
    (hx : lo < x) : Memory.above lo (Memory.write m x v) := by
  induction m with
  | nil => intro c hc; simp [Memory.write] at hc; subst hc; exact hx
  | cons c m ih =>
    obtain ⟨a, b⟩ := c
    have ha : lo < a := h (a, b) (List.mem_cons_self ..)
    have ht : Memory.above lo m := fun c hc => h c (List.mem_cons_of_mem _ hc)
    unfold Memory.write
    split_ifs
    · intro c hc
      rcases List.mem_cons.1 hc with rfl | hc
      · exact hx
      · exact h c hc
    · intro c hc
      rcases List.mem_cons.1 hc with rfl | hc
      · exact hx
      · exact ht c hc
    · intro c hc
      rcases List.mem_cons.1 hc with rfl | hc
      · exact ha
      · exact ih ht c hc

theorem Memory.wf_write {m : Memory} (x : Nat) (v : Byte) (h : Memory.wf m = true) :
    Memory.wf (Memory.write m x v) = true := by
  induction m with
  | nil => rfl
  | cons c m ih =>
    obtain ⟨a, b⟩ := c
    obtain ⟨h1, h2⟩ := (Memory.wf_cons a b m).1 h
    unfold Memory.write
    split_ifs with hlt heq
    · refine (Memory.wf_cons _ _ _).2 ⟨?_, h⟩
      intro c hc
      rcases List.mem_cons.1 hc with rfl | hc
      · exact hlt
      · exact lt_trans hlt (h1 c hc)
    · subst heq; exact (Memory.wf_cons _ _ _).2 ⟨h1, h2⟩
    · exact (Memory.wf_cons _ _ _).2 ⟨Memory.above_write v h1 (by omega), ih h2⟩

theorem Memory.wf_writeBytes {m : Memory} (x : Nat) (v : ByteString) (h : Memory.wf m = true) :
    Memory.wf (Memory.writeBytes m x v) = true := by
  induction v generalizing m x with
  | nil => exact h
  | cons b v ih => exact ih (x + 1) (Memory.wf_write x b h)

theorem Memory.within_write {m : Memory} {size x : Nat} (v : Byte) (h : Memory.within m size = true)
    (hx : x < size) : Memory.within (Memory.write m x v) size = true := by
  induction m with
  | nil => simpa [Memory.write, Memory.within] using hx
  | cons c m ih =>
    obtain ⟨a, b⟩ := c
    simp only [Memory.within, List.all_cons, Bool.and_eq_true, decide_eq_true_eq] at h ih
    unfold Memory.write
    split_ifs <;> simp only [Memory.within, List.all_cons, Bool.and_eq_true, decide_eq_true_eq]
    · exact ⟨hx, h⟩
    · exact ⟨hx, h.2⟩
    · exact ⟨h.1, ih h.2⟩

theorem Memory.within_writeBytes {m : Memory} {size x : Nat} (v : ByteString)
    (h : Memory.within m size = true) (hx : x + v.length ≤ size) :
    Memory.within (Memory.writeBytes m x v) size = true := by
  induction v generalizing m x with
  | nil => exact h
  | cons b v ih =>
    simp only [List.length_cons] at hx
    exact ih (Memory.within_write b h (by omega)) (by omega)

/-- Reset leaves every storage in canonical form. -/
theorem State.reset_wf (sp : Space) : Memory.wf (State.reset.mem sp) = true := by cases sp <;> rfl

/-- Everything a write does to a byte read: the written bytes, and every other byte of every storage as
before. -/
theorem State.byteAt_writeBytes (s : State) (sp sp' : Space) (x : Nat) (v : ByteString) (y : Nat) :
    (s.writeBytes sp x v).byteAt sp' y =
      if sp' = sp ∧ x ≤ y ∧ y < x + v.length then v.getD (y - x) 0 else s.byteAt sp' y := by
  have hdraw : (s.writeBytes sp x v).draw = s.draw := by cases sp <;> rfl
  by_cases hsp : sp' = sp
  · subst hsp
    have hm : (s.writeBytes sp' x v).mem sp' = Memory.writeBytes (s.mem sp') x v := by
      cases sp' <;> rfl
    simp only [State.byteAt, hm, hdraw, Memory.lookup_writeBytes, true_and]
    split_ifs with h
    · have hlt : y - x < v.length := by omega
      simp [List.getD, List.getElem?_eq_getElem hlt]
    · rfl
  · have hm : (s.writeBytes sp x v).mem sp' = s.mem sp' := by
      cases sp <;> cases sp' <;> first | rfl | exact absurd rfl hsp
    simp [State.byteAt, hm, hdraw, hsp]

/-- A byte read depends on the storage and the draw only. -/
theorem State.byteAt_congr {s t : State} {sp : Space} (hm : t.mem sp = s.mem sp)
    (hd : t.draw = s.draw) (a : Nat) : t.byteAt sp a = s.byteAt sp a := by
  simp [State.byteAt, hm, hd]

@[simp] theorem State.readBytes_length (s : State) (sp : Space) (a n : Nat) :
    (s.readBytes sp a n).length = n := by
  induction n generalizing a with
  | zero => rfl
  | succ n ih => simp [State.readBytes, ih]

theorem State.readBytes_getElem? (s : State) (sp : Space) (a n i : Nat) :
    (s.readBytes sp a n)[i]? = if i < n then some (s.byteAt sp (a + i)) else none := by
  induction n generalizing a i with
  | zero => simp [State.readBytes]
  | succ n ih =>
    cases i with
    | zero => simp [State.readBytes]
    | succ i =>
      have h : a + 1 + i = a + (i + 1) := by omega
      simp only [State.readBytes, List.getElem?_cons_succ, ih, Nat.add_lt_add_iff_right, h]

/-- Two reads agree when every byte they read agrees. -/
theorem State.readBytes_congr {s t : State} {sp : Space} {a n : Nat}
    (h : ∀ i, i < n → t.byteAt sp (a + i) = s.byteAt sp (a + i)) :
    t.readBytes sp a n = s.readBytes sp a n := by
  apply List.ext_getElem?
  intro i
  simp only [State.readBytes_getElem?]
  split_ifs with hi
  · rw [h i hi]
  · rfl

/-- Reading back the bytes just written gives them. -/
theorem State.readBytes_writeBytes (s : State) (sp : Space) (x : Nat) (v : ByteString) :
    (s.writeBytes sp x v).readBytes sp x v.length = v := by
  apply List.ext_getElem?
  intro i
  simp only [State.readBytes_getElem?, State.byteAt_writeBytes]
  by_cases hi : i < v.length
  · have h1 : x ≤ x + i ∧ x + i < x + v.length := by omega
    simp [hi, h1]
  · simp [hi]

theorem State.readBytes_append (s : State) (sp : Space) (a m n : Nat) :
    s.readBytes sp a (m + n) = s.readBytes sp a m ++ s.readBytes sp (a + m) n := by
  induction m generalizing a with
  | zero => simp [State.readBytes]
  | succ m ih =>
    have h : a + 1 + m = a + (m + 1) := by omega
    rw [Nat.succ_add]
    simp only [State.readBytes, List.cons_append, ih, h]

/-! ### The two ends of a command -/

/-- Everything a command error does (R153): ERR changes and nothing else. -/
theorem raise_next {e : ErrCode} {s t : State} : raise e s = .next t ↔ t = { s with err := e } := by
  constructor
  · intro h; cases h; rfl
  · rintro rfl; rfl

/-- Everything a command's success adds to its outputs: RESULT and ERR. -/
theorem succeed_next {v : Word} {s t : State} :
    succeed v s = .next t ↔ t = { s with result := v, err := .eNone } := by
  constructor
  · intro h; cases h; rfl
  · rintro rfl; rfl

theorem raise_eq (e : ErrCode) (s : State) : raise e s = .next { s with err := e } := rfl

theorem succeed_eq (v : Word) (s : State) : succeed v s = .next { s with result := v, err := .eNone } := rfl

/-! ### Numbers and words -/

@[simp] theorem toWord_toNat (n : Nat) : (toWord n).toNat = n % 2 ^ 32 := by simp [toWord]

theorem packWord_toNat (b0 b1 b2 b3 : Byte) :
    (packWord b0 b1 b2 b3).toNat =
      b3.toNat * 2 ^ 24 + b2.toNat * 2 ^ 16 + b1.toNat * 2 ^ 8 + b0.toNat := by
  have h0 := b0.isLt; have h1 := b1.isLt; have h2 := b2.isLt; have h3 := b3.isLt
  simp only [packWord, BitVec.toNat_append, Nat.shiftLeft_eq]
  rw [← Nat.shiftLeft_eq, ← Nat.shiftLeft_eq, ← Nat.shiftLeft_eq,
    ← Nat.shiftLeft_add_eq_or_of_lt h2, ← Nat.shiftLeft_add_eq_or_of_lt h1,
    ← Nat.shiftLeft_add_eq_or_of_lt h0]
  simp only [Nat.shiftLeft_eq]
  omega

/-! ### RX events -/

/-- The port's signals present the event they encode (R84). -/
theorem RxEvent.event_signals (e : RxEvent) : e.signals.event = some e := by cases e <;> rfl

end Sys2Proof.Machine
end

