-- ==== Sys2Proof/Laws/Codec.lean ====
section
/-!
SUPPORT. Small lemmas of the codec functions: lengths, sums, frames.
-/

namespace Sys2Proof.Machine

open Sys2Proof

@[simp] theorem bsum_nil : bsum [] = 0 := rfl

@[simp] theorem bsum_cons (b : Byte) (p : ByteString) : bsum (b :: p) = b.toNat + bsum p := rfl

@[simp] theorem bsum_append (p q : ByteString) : bsum (p ++ q) = bsum p + bsum q := by
  induction p with
  | nil => simp
  | cons b p ih => simp [ih, Nat.add_assoc]

@[simp] theorem fmt9_length (f : DigestFormat) (n : Nat) : (fmt9 f n).length = 9 := by cases f <;> rfl

@[simp] theorem digest_length (f : DigestFormat) (p : ByteString) : (digest f p).length = 9 := fmt9_length _ _

@[simp] theorem frameBytes_length (f : DigestFormat) (ch : ByteString) (c : Byte) :
    (frameBytes f ch c).length = ch.length + 10 := by
  simp [frameBytes]

@[simp] theorem Token.wire_length_le (t : Token) : t.wire.length ≤ 7 := by cases t <;> decide

/-- A frame's length shows in its fields. -/
theorem frameFields_payload_length {w : ByteString} {x : FrameFields} (h : frameFields w = some x) :
    x.payload.length = w.length - 10 ∧ 10 ≤ w.length := by
  unfold frameFields at h
  split_ifs at h with hlen
  simp only [Option.some.injEq] at h
  subst h
  simp only [List.length_take]
  omega

end Sys2Proof.Machine
end

