-- ==== Sys2Proof/Laws/Engine.lean ====
section
/-!
SUPPORT. The engines' turns, case by case: one equation per row of R121 and R134, so that no proof unfolds
`senderStep` or `receiverStep` again.
-/

namespace Sys2Proof.Machine

open Sys2Proof

section Sender

variable {s : State} {x : RxSignals} {more : List RxSignals}

theorem senderStep_off (h : s.snd.state = .off) : senderStep s = s := by simp only [senderStep, h]

theorem senderStep_done (h : s.snd.state = .done) : senderStep s = s := by simp only [senderStep, h]

theorem senderStep_aborted (h : s.snd.state = .aborted) : senderStep s = s := by simp only [senderStep, h]

theorem senderStep_build (h : s.snd.state = .idle) (hlt : s.snd.off.toNat < s.snd.plen.toNat) :
    senderStep s = sndBuild s := by
  simp only [senderStep, h, hlt, if_true]

theorem senderStep_finish (h : s.snd.state = .idle) (heq : s.snd.off = s.snd.plen) :
    senderStep s = sndFinish s := by
  simp only [senderStep, h, heq, lt_irrefl, if_false, if_true]

/-- The state that no run reaches: no row of R121 applies. -/
theorem senderStep_past (h : s.snd.state = .idle) (hgt : s.snd.plen.toNat < s.snd.off.toNat) :
    senderStep s = s := by
  have h1 : ¬s.snd.off.toNat < s.snd.plen.toNat := by omega
  have h2 : ¬s.snd.off = s.snd.plen := by intro e; rw [e] at hgt; omega
  simp only [senderStep, h, h1, h2, if_false]

theorem senderStep_wait (h : s.snd.state = .awaitingAck) (hx : s.sndRx = []) : senderStep s = s := by
  simp only [senderStep, h, hx]

theorem senderStep_read (h : s.snd.state = .awaitingAck) (hx : s.sndRx = x :: more) :
    senderStep s = sndEvent x.event { s with sndRx := more } := by
  simp only [senderStep, h, hx]

/-! ### Building and sending a frame -/

/-- The frame in flight depends on the kept bytes, its length and the draw only. -/
theorem State.frameInFlight_congr {s t : State} (hf : t.snd.frame = s.snd.frame)
    (hl : t.snd.flen = s.snd.flen) (hd : t.draw = s.draw) : t.frameInFlight = s.frameInFlight := by
  unfold State.frameInFlight
  rw [hl]
  exact State.readBytes_congr fun i _ => State.byteAt_congr (s := s) (t := t) (sp := .frame) hf hd _

/-- The chunk at `snd.off` depends on C, the two offsets, the payload bytes and the draw only. -/
theorem State.chunkAtOff_congr {s t : State} (hc : t.cfg = s.cfg) (ho : t.snd.off = s.snd.off)
    (hp : t.snd.plen = s.snd.plen) (hm : t.pmem = s.pmem) (hd : t.draw = s.draw) :
    t.chunkAtOff = s.chunkAtOff := by
  simp only [State.chunkAtOff, State.chunkLen, hc, ho, hp]
  exact State.readBytes_congr fun i _ => State.byteAt_congr (s := s) (t := t) (sp := .pmem) hm hd _

/-- Everything the building step does (R122): what it sends is the frame it has just kept. -/
theorem sndBuild_eq (s : State) (hc : s.chunkLen + 10 < 2 ^ 32) :
    sndBuild s =
      let f := frameBytes s.cfg.digestFormat s.chunkAtOff s.snd.expectedAck
      { s with
        snd :=
          { s.snd with
            frame := Memory.writeBytes s.snd.frame 0 f, flen := toWord (s.chunkLen + 10),
            resendPending := false, state := .awaitingAck }
        sndTx := s.sndTx ++ [f] } := by
  have hl : (frameBytes s.cfg.digestFormat s.chunkAtOff s.snd.expectedAck).length = s.chunkLen + 10 := by
    simp [State.chunkAtOff]
  have key : ∀ u : State,
      u.snd.frame =
        Memory.writeBytes s.snd.frame 0 (frameBytes s.cfg.digestFormat s.chunkAtOff s.snd.expectedAck) →
      u.draw = s.draw →
      u.readBytes .frame 0 (s.chunkLen + 10) =
        frameBytes s.cfg.digestFormat s.chunkAtOff s.snd.expectedAck := by
    intro u hu hd
    rw [← hl]
    refine Eq.trans ?_ (State.readBytes_writeBytes s .frame 0 _)
    exact State.readBytes_congr fun i _ =>
      State.byteAt_congr (s := s.writeBytes .frame 0 _) (t := u) (sp := .frame) hu hd _
  unfold sndBuild State.frameInFlight
  simp only [toWord_toNat, Nat.mod_eq_of_lt hc]
  rw [key]
  all_goals rfl

/-- Everything a retransmission does (R125, R126). -/
theorem sndResend_eq (s : State) :
    sndResend s =
      { s with snd := { s.snd with resendPending := true }, sndTx := s.sndTx ++ [s.frameInFlight] } := rfl

end Sender

section Receiver

variable {s : State} {x : RxSignals} {more : List RxSignals}

theorem receiverStep_stopped (h : s.rcv.state ≠ .listening) : receiverStep s = s := by
  cases hs : s.rcv.state with
  | listening => exact absurd hs h
  | _ => simp only [receiverStep, hs]

theorem receiverStep_wait (h : s.rcv.state = .listening) (hx : s.rcvRx = []) : receiverStep s = s := by
  simp only [receiverStep, h, hx]

theorem receiverStep_read (h : s.rcv.state = .listening) (hx : s.rcvRx = x :: more) :
    receiverStep s = rcvEvent x.event { s with rcvRx := more } := by
  simp only [receiverStep, h, hx]

end Receiver

/-! ### What a message makes the receiver do -/

/-- A message with a nine-byte checksum field splits at its end (R79). -/
theorem frameFields_append (p d : ByteString) (seq : Byte) (h : d.length = 9) :
    frameFields (p ++ d ++ [seq]) = some { payload := p, checksum := d, seq := seq } := by
  have hl : (p ++ d ++ [seq]).length = p.length + 10 := by simp [h]
  have hn : ¬(p ++ d ++ [seq]).length < 10 := by omega
  have e : (p ++ d ++ [seq]).length - 10 = p.length := by omega
  unfold frameFields
  rw [if_neg hn]
  simp only [e, Option.some.injEq, FrameFields.mk.injEq]
  refine ⟨by simp, by simp [← h], ?_⟩
  rw [← h]
  simp [List.getD]

theorem ne_wire_of_length {m : ByteString} (h : 10 ≤ m.length) (t : Token) : m ≠ t.wire := by
  rintro rfl
  have := t.wire_length_le
  omega

/-- The answer to a message with a nine-byte checksum field and an admitted length (R134 rows 5 to 8). -/
theorem rcvMessage_frame (s : State) (p d : ByteString) (seq : Byte) (hd : d.length = 9)
    (hl : p.length + 10 ≤ s.cfg.rxMsgMax) :
    rcvMessage (p ++ d ++ [seq]) s =
      if !verify s.cfg.digestFormat p d then rcvMismatch s
      else if seq = s.rcv.expectedSeq then
        if textOk s.cfg.textCheck p then rcvAccept p s else rcvUnicode s
      else if earlier s.cfg.staleWindow seq s.rcv.expectedSeq then rcvReack seq s
      else rcvMismatch s := by
  have h1 : ¬p ++ d ++ [seq] = Token.wire .done := ne_wire_of_length (by simp [hd]) _
  have h2 : ¬s.cfg.rxMsgMax < (p ++ d ++ [seq]).length := by
    simp only [List.length_append, hd, List.length_cons, List.length_nil]; omega
  unfold rcvMessage
  rw [if_neg h1, frameFields_append p d seq hd]
  simp only [h2, if_false]

/-- What the receiver does with a message: it finishes, or rejects, or takes a frame (R134). -/
theorem rcvMessage_cases (m : ByteString) (s : State) :
    (m = Token.wire .done ∧ rcvMessage m s = rcvDone s) ∨ rcvMessage m s = rcvMismatch s ∨
      ∃ p seq, m = frameBytes s.cfg.digestFormat p seq ∧ m.length ≤ s.cfg.rxMsgMax ∧
        ((seq = s.rcv.expectedSeq ∧ textOk s.cfg.textCheck p = true ∧ rcvMessage m s = rcvAccept p s) ∨
          (seq = s.rcv.expectedSeq ∧ textOk s.cfg.textCheck p = false ∧ rcvMessage m s = rcvUnicode s) ∨
          (seq ≠ s.rcv.expectedSeq ∧ earlier s.cfg.staleWindow seq s.rcv.expectedSeq = true ∧
            rcvMessage m s = rcvReack seq s)) := by
  by_cases hdone : m = Token.wire .done
  · exact .inl ⟨hdone, by simp only [rcvMessage, hdone, if_true]⟩
  refine .inr ?_
  by_cases hlen : m.length < 10
  · left; simp [rcvMessage, hdone, frameFields, hlen]
  by_cases hmax : s.cfg.rxMsgMax < m.length
  · left; simp [rcvMessage, hdone, frameFields, hlen, hmax]
  obtain ⟨p, d, seq, hd, rfl⟩ : ∃ p d seq, d.length = 9 ∧ m = p ++ d ++ [seq] := by
    have h10 : 10 ≤ m.length := by omega
    refine ⟨m.take (m.length - 10), (m.drop (m.length - 10)).take 9, m.getLast (by rintro rfl; simp at h10),
      by simp only [List.length_take, List.length_drop]; omega, ?_⟩
    apply List.ext_getElem?
    intro i
    simp only [List.getElem?_append, List.getElem?_take, List.getElem?_drop, List.length_append,
      List.length_take, List.length_drop]
    split_ifs with h1 h2 h3 h4 <;> try omega
    · rfl
    · congr 1; omega
    · have e : i = m.length - 1 ∨ m.length ≤ i := by omega
      rcases e with rfl | e
      · have e2 : m.length - 1 - (min (m.length - 10) m.length + min 9 (m.length - (m.length - 10))) = 0 := by
          omega
        rw [e2]
        simp [List.getLast_eq_getElem]
      · rw [List.getElem?_eq_none e, List.getElem?_eq_none]
        simp only [List.length_cons, List.length_nil]; omega
  have hp : p.length + 10 ≤ s.cfg.rxMsgMax := by simp [hd] at hmax; omega
  rw [rcvMessage_frame s p d seq hd hp]
  by_cases hv : verify s.cfg.digestFormat p d = true
  · have hdig : digest s.cfg.digestFormat p = d := by simpa [verify] using hv
    by_cases hs : seq = s.rcv.expectedSeq
    · right
      refine ⟨p, seq, by rw [← hdig]; rfl, by omega, ?_⟩
      cases ht : textOk s.cfg.textCheck p <;> simp [hv, hs]
    · by_cases he : earlier s.cfg.staleWindow seq s.rcv.expectedSeq = true
      · right
        refine ⟨p, seq, by rw [← hdig]; rfl, by omega, .inr (.inr ⟨hs, he, ?_⟩)⟩
        simp [hv, hs, he]
      · left; simp [hv, hs, he]
  · left; simp [hv]

end Sys2Proof.Machine
end

