-- ==== Sys2Proof/Laws/Step.lean ====
section
/-!
SUPPORT. Inversion: once for a command, a host access and a step, everything each can do.
-/

namespace Sys2Proof.Machine

open Sys2Proof

/-- The legal ranges of R11, number by number. -/
theorem Params.legal_iff (p : Params) : p.legal = true ↔
    (1 ≤ p.chunkSize ∧ p.chunkSize + 10 ≤ p.ibufSize ∧ p.chunkSize + 10 ≤ p.obufSize) ∧
      (1 ≤ p.retryLimit ∧ p.retryLimit ≤ 255) ∧ (1 ≤ p.timeoutLimit ∧ p.timeoutLimit ≤ 255) ∧
      (1 ≤ p.staleWindow ∧ p.staleWindow ≤ 255) ∧ (10 ≤ p.rxMsgMax ∧ p.rxMsgMax < 2 ^ 32) ∧
      (11 ≤ p.ibufSize ∧ p.ibufSize ≤ 65536) ∧ (11 ≤ p.obufSize ∧ p.obufSize ≤ 65536) ∧
      (1 ≤ p.pmemSize ∧ p.pmemSize ≤ 2 ^ 31) := by
  simp only [Params.legal, Params.chunkSizeLegal, Params.retryLimitLegal, Params.timeoutLimitLegal,
    Params.staleWindowLegal, Params.rxMsgMaxLegal, Params.ibufSizeLegal, Params.obufSizeLegal,
    Params.pmemSizeLegal, Bool.and_eq_true, decide_eq_true_eq]
  omega

/-- What a command leaves: an error in ERR; a result, perhaps a digest, perhaps an output that fits OBUF;
or a started session. -/
theorem exec_cases {i : Instr} {s t : State} (h : exec i s = .next t) :
    (∃ e, t = s.setErr e) ∨
    (∃ r g, (g = s.dgst ∨ g.length = 9) ∧ t = { s with dgst := g, result := r, err := .eNone }) ∨
    (∃ r g v, (g = s.dgst ∨ g.length = 9) ∧ (s.cfg.legal = true → v.length ≤ s.cfg.obufSize) ∧
      t = { s with
        dgst := g, obuf := Memory.writeBytes s.obuf 0 v, outLen := toWord v.length, result := r,
        err := .eNone }) ∨
    (i = .sndStart ∧ s.senderActive = false ∧ s.plen.toNat ≤ s.cfg.pmemSize ∧ ∃ r,
      t = { s with
        snd :=
          { s.snd with
            state := .idle, expectedAck := 0x01, retryCount := 0, resendPending := false, off := 0,
            plen := s.plen, flen := 0, cause := .noAbort }
        result := r, err := .eNone }) ∨
    (i = .rcvStart ∧ s.rcv.state ≠ .listening ∧
      t = { s with
        rcv :=
          { state := .listening, expectedSeq := 0x01, timeoutCount := 0, delivered := false, dcount := 0,
            cause := .noAbort }
        result := 0, err := .eNone }) := by
  have R : ∀ {e}, raise e s = .next t → ∃ e, t = s.setErr e := by
    intro e he; exact ⟨e, by rw [raise_next] at he; exact he⟩
  have legal := Params.legal_iff s.cfg
  cases i with
  | cksumCompute =>
    simp only [exec, execCksumCompute] at h
    split at h
    · exact .inl (R h)
    · rw [succeed_next] at h
      exact .inr (.inr (.inl ⟨_, _, _, .inr (digest_length _ _),
        fun hl => by rw [digest_length]; have := legal.1 hl; omega, h⟩))
  | cksumVerify =>
    simp only [exec, execCksumVerify] at h
    split at h
    · exact .inl (R h)
    split at h
    · exact .inl (R h)
    · rw [succeed_next] at h
      exact .inr (.inl ⟨_, _, .inr (digest_length _ _), h⟩)
  | chunkCount =>
    simp only [exec, execChunkCount] at h
    split at h
    · exact .inl (R h)
    · rw [succeed_next] at h
      exact .inr (.inl ⟨_, _, .inl rfl, h⟩)
  | chunkGet =>
    simp only [exec, execChunkGet] at h
    split at h
    · exact .inl (R h)
    split at h
    · exact .inl (R h)
    · rw [succeed_next] at h
      exact .inr (.inr (.inl ⟨_, _, _, .inl rfl,
        fun hl => by rw [State.readBytes_length]; have := legal.1 hl; omega, h⟩))
  | frameEncode seq =>
    simp only [exec, execFrameEncode] at h
    split at h
    · exact .inl (R h)
    split at h
    · exact .inl (R h)
    · rw [succeed_next] at h
      exact .inr (.inr (.inl ⟨_, _, _, .inr (digest_length _ _),
        fun hl => by
          rw [frameBytes_length, State.input, State.readBytes_length]; have := legal.1 hl; omega, h⟩))
  | frameDecode =>
    simp only [exec, execFrameDecode] at h
    split at h
    · exact .inl (R h)
    split at h
    · exact .inl (R h)
    split at h
    · exact .inl (R h)
    · rename_i f hf _
      rw [succeed_next] at h
      have hc : f.checksum.length = 9 := by
        unfold frameFields at hf
        split_ifs at hf
        simp only [Option.some.injEq] at hf
        subst hf
        simp only [List.length_take, List.length_drop]
        omega
      exact .inr (.inr (.inl ⟨_, _, _, .inr hc, fun _ => by omega, h⟩))
  | tokenClassify =>
    simp only [exec, execTokenClassify] at h
    split at h
    · exact .inl (R h)
    · rw [succeed_next] at h
      exact .inr (.inl ⟨_, _, .inl rfl, h⟩)
  | tokenEmit =>
    simp only [exec, execTokenEmit] at h
    split at h
    · exact .inl (R h)
    · rename_i tok _
      rw [succeed_next] at h
      exact .inr (.inr (.inl ⟨_, _, _, .inl rfl,
        fun hl => by have := legal.1 hl; have := tok.wire_length_le; omega, h⟩))
  | ackEncode seq =>
    simp only [exec, execAckEncode, succeed_next] at h
    exact .inr (.inr (.inl ⟨_, _, _, .inl rfl,
      fun hl => by have := legal.1 hl; simp only [ackBytes, List.length_cons, List.length_nil]; omega, h⟩))
  | seqInc seq =>
    simp only [exec, execSeqInc, succeed_next] at h
    exact .inr (.inl ⟨_, _, .inl rfl, h⟩)
  | seqEarlier seq =>
    simp only [exec, execSeqEarlier, succeed_next] at h
    exact .inr (.inl ⟨_, _, .inl rfl, h⟩)
  | sndStart =>
    simp only [exec, execSndStart] at h
    split at h
    · exact .inl (R h)
    split at h
    · exact .inl (R h)
    · rename_i h1 h2
      rw [succeed_next] at h
      refine .inr (.inr (.inr (.inl ⟨rfl, by simpa using h1, ?_, _, h⟩)))
      simpa [State.payloadTooLong] using h2
  | rcvStart =>
    simp only [exec, execRcvStart] at h
    split at h
    · exact .inl (R h)
    all_goals
      rename_i hs
      rw [succeed_next] at h
      exact .inr (.inr (.inr (.inr ⟨rfl, by rw [hs]; simp, h⟩)))

/-- What a host access leaves, where it is not refused. -/
theorem hostAccess_cases {acc : HostAccess} {s t : State} (h : hostAccess acc s = .next t) :
    t = s ∨ (∃ v, t = s.answer v) ∨ (∃ v, t = { s with arg := v }) ∨ (∃ v, t = { s with inLen := v }) ∨
    (s.senderActive = false ∧ ∃ v, t = { s with plen := v }) ∨ (∃ e, t = s.setErr e) ∨
    (∃ w i, acc = .writeWord 0 w ∧ decode w = .command i ∧ exec i s = .next t) ∨
    (∃ a v, a < s.cfg.ibufSize ∧ t = s.writeBytes .ibuf a [v]) ∨
    (s.senderActive = false ∧ ∃ a v, a < s.cfg.pmemSize ∧ t = s.writeBytes .pmem a [v]) := by
  cases acc with
  | readWord a =>
    simp only [hostAccess, hostReadWord] at h
    split at h
    · split at h <;> simp at h
      exact .inr (.inl ⟨_, h.symm⟩)
    · simp at h
    · simp at h
  | readByte a =>
    simp only [hostAccess, hostReadByte] at h
    split at h <;> simp at h
    · exact .inr (.inl ⟨_, h.symm⟩)
    · exact .inr (.inl ⟨_, h.symm⟩)
  | otherWidth a b w =>
    simp only [hostAccess, hostOtherWidth] at h
    split at h <;> simp at h
  | writeWord a v =>
    simp only [hostAccess, hostWriteWord] at h
    split at h
    · rename_i off hw
      split at h
      · rename_i hal
        unfold writeOffset at h
        split at h <;> try (simp only [Host.Outcome.next.injEq] at h)
        case h_1 hreg =>
          have hoff : off = 0 := by
            unfold regAt at hreg
            split at hreg <;> simp at hreg
            rfl
          have ha : a = 0 := by
            subst hoff
            simp only [window] at hw
            split_ifs at hw
            simp only [Window.registers.injEq] at hw
            exact BitVec.eq_of_toNat_eq (by simpa using hw)
          subst ha
          unfold runCommand at h
          split at h
          · rename_i i hd
            exact .inr (.inr (.inr (.inr (.inr (.inr (.inl ⟨v, i, rfl, hd, h⟩))))))
          · rw [raise_next] at h
            exact .inr (.inr (.inr (.inr (.inr (.inl ⟨_, h⟩)))))
        case h_2 => exact .inr (.inr (.inl ⟨_, h.symm⟩))
        case h_3 => exact .inr (.inr (.inr (.inl ⟨_, h.symm⟩)))
        case h_4 =>
          unfold writePlen at h
          split at h
          · exact .inr (.inr (.inr (.inr (.inr (.inl ⟨_, h.symm⟩)))))
          · rename_i hact
            exact .inr (.inr (.inr (.inr (.inl ⟨by simpa using hact, _, h.symm⟩))))
        all_goals exact .inl h.symm
      · simp at h
    · simp at h
    · simp at h
  | writeByte a v =>
    simp only [hostAccess, hostWriteByte] at h
    split at h
    · simp at h
    · simp only [Host.Outcome.next.injEq] at h
      exact .inl h.symm
    · rename_i sp i _
      simp only [Host.Outcome.next.injEq] at h
      unfold writeIndex at h
      split at h
      · rename_i hi
        cases sp with
        | ibuf => exact .inr (.inr (.inr (.inr (.inr (.inr (.inr (.inl ⟨i, v, hi, h.symm⟩)))))))
        | obuf => exact .inl h.symm
        | frame => exact .inl h.symm
        | pmem =>
          simp only at h
          split at h
          · exact .inr (.inr (.inr (.inr (.inr (.inl ⟨_, h.symm⟩)))))
          · rename_i hact
            exact .inr (.inr (.inr (.inr (.inr (.inr (.inr (.inr
              ⟨by simpa using hact, i, v, hi, h.symm⟩)))))))
      · exact .inl h.symm

/-- Under a legal configuration a step with a scheduled action performs it. -/
theorem step_cons {s : State} {act : Action} {rest : List Action} (h : s.cfg.legal = true)
    (e : s.sched = act :: rest) : step s = perform act { s with sched := rest } := by
  simp only [step, h, if_true, performNext, e]

/-- What a step does: nothing, or the next action of the schedule. -/
theorem step_cases {s t : State} (h : step s = .next t) :
    s.cfg.legal = true ∧
      ((s.sched = [] ∧ t = s) ∨
        ∃ rest,
          (∃ acc, s.sched = .host acc :: rest ∧ hostAccess acc { s with sched := rest } = .next t) ∨
          (s.sched = .senderStep :: rest ∧ t = senderStep { s with sched := rest }) ∨
          (s.sched = .receiverStep :: rest ∧ t = receiverStep { s with sched := rest }) ∨
          (s.sched = .reset :: rest ∧ t = State.assertReset { s with sched := rest })) := by
  unfold step at h
  split at h
  · rename_i hl
    refine ⟨hl, ?_⟩
    unfold performNext at h
    split at h
    · rename_i hs
      simp only [Host.Outcome.next.injEq] at h
      exact .inl ⟨hs, h.symm⟩
    · rename_i act rest hs
      refine .inr ⟨rest, ?_⟩
      cases act with
      | host acc => exact .inl ⟨acc, hs, h⟩
      | senderStep =>
        simp only [perform, Host.Outcome.next.injEq] at h
        exact .inr (.inl ⟨hs, h.symm⟩)
      | receiverStep =>
        simp only [perform, Host.Outcome.next.injEq] at h
        exact .inr (.inr (.inl ⟨hs, h.symm⟩))
      | reset =>
        simp only [perform, Host.Outcome.next.injEq] at h
        exact .inr (.inr (.inr ⟨hs, h.symm⟩))
  · simp at h

end Sys2Proof.Machine
end

