-- ==== Sys2Proof/Laws/Bus.lean ====
section
/-!
SUPPORT. The address map in terms of buffer indices, and what a command's output and a one-byte host write
do to the bytes read, so that no proof unfolds `window` or the storage operations again.
-/

namespace Sys2Proof.Machine

open Sys2Proof

/-! ### The windows of R48 -/

theorem window_registers {a : Word} (h : a.toNat ≤ 0xFF) : window a = .registers a.toNat := by
  simp [window, h]

theorem window_reserved {a : Word}
    (h : (0x100 ≤ a.toNat ∧ a.toNat ≤ 0xFFFF) ∨ (0x30000 ≤ a.toNat ∧ a.toNat ≤ 0x7FFFFFFF)) :
    window a = .reserved := by
  unfold window
  dsimp only
  split_ifs <;> first | rfl | omega

theorem window_ibuf {i : Nat} (h : i < 65536) : window (toWord (0x10000 + i)) = .buffer .ibuf i := by
  have e : (toWord (0x10000 + i)).toNat = 0x10000 + i := by rw [toWord_toNat]; omega
  unfold window
  simp only [e]
  rw [if_neg (by omega), if_neg (by omega), if_pos (by omega), Nat.add_sub_cancel_left]

theorem window_obuf {i : Nat} (h : i < 65536) : window (toWord (0x20000 + i)) = .buffer .obuf i := by
  have e : (toWord (0x20000 + i)).toNat = 0x20000 + i := by rw [toWord_toNat]; omega
  unfold window
  simp only [e]
  rw [if_neg (by omega), if_neg (by omega), if_neg (by omega), if_pos (by omega), Nat.add_sub_cancel_left]

theorem window_pmem {i : Nat} (h : i < 2 ^ 31) : window (toWord (0x80000000 + i)) = .buffer .pmem i := by
  have e : (toWord (0x80000000 + i)).toNat = 0x80000000 + i := by rw [toWord_toNat]; omega
  unfold window
  simp only [e]
  rw [if_neg (by omega), if_neg (by omega), if_neg (by omega), if_neg (by omega), if_neg (by omega),
    Nat.add_sub_cancel_left]

/-! ### Bytes after a write -/

/-- What storage reads after a write from address `x` on, whatever else the state changed. -/
theorem State.byteAt_of_writeBytes {s t : State} {sp : Space} {x : Nat} {v : ByteString}
    (hm : t.mem sp = Memory.writeBytes (s.mem sp) x v) (hd : t.draw = s.draw) (a : Nat) :
    t.byteAt sp a = if x ≤ a ∧ a < x + v.length then v.getD (a - x) 0 else s.byteAt sp a := by
  have h1 : t.byteAt sp a = (s.writeBytes sp x v).byteAt sp a := by
    refine State.byteAt_congr ?_ ?_ a
    · rw [hm]; cases sp <;> rfl
    · rw [hd]; cases sp <;> rfl
  rw [h1, State.byteAt_writeBytes]
  simp only [true_and]

/-- What OBUF reads after a command's output (R54). -/
theorem obufIs_of_writeBytes {s t : State} {v : ByteString} (hm : t.obuf = Memory.writeBytes s.obuf 0 v)
    (hd : t.draw = s.draw) : obufIs s t v := by
  intro a
  rw [State.byteAt_of_writeBytes (s := s) (sp := .obuf) hm hd]
  by_cases h : a < v.length
  · simp [h, List.getD]
  · simp [h, List.getD]

end Sys2Proof.Machine
end

