-- ==== Sys2Proof/Laws/PerInstr.lean ====
section
/-!
SUPPORT. Statements about every command as syntax, one lemma per constructor.
-/

namespace Sys2Proof.Laws

open Sys2Proof

/-- The word of a command has the format of R73: RSVD is 0, OP is its operation code, SEQ its seq field,
and R76 does not call it illegal. -/
def EncodeShape.Statement (i : Instr) : Prop :=
  cmdRsvd (encode i) = 0 ∧ cmdOp (encode i) = opcode i ∧ cmdSeq (encode i) = seqField i ∧
    commandWordLegal (encode i) = true

theorem EncodeShape.cksumCompute : EncodeShape.Statement .cksumCompute := by
  unfold EncodeShape.Statement; decide

theorem EncodeShape.cksumVerify : EncodeShape.Statement .cksumVerify := by
  unfold EncodeShape.Statement; decide

theorem EncodeShape.chunkCount : EncodeShape.Statement .chunkCount := by
  unfold EncodeShape.Statement; decide

theorem EncodeShape.chunkGet : EncodeShape.Statement .chunkGet := by
  unfold EncodeShape.Statement; decide

theorem EncodeShape.frameEncode (seq : Byte) : EncodeShape.Statement (.frameEncode seq) := by
  unfold EncodeShape.Statement; revert seq; decide

theorem EncodeShape.frameDecode : EncodeShape.Statement .frameDecode := by
  unfold EncodeShape.Statement; decide

theorem EncodeShape.tokenClassify : EncodeShape.Statement .tokenClassify := by
  unfold EncodeShape.Statement; decide

theorem EncodeShape.tokenEmit : EncodeShape.Statement .tokenEmit := by
  unfold EncodeShape.Statement; decide

theorem EncodeShape.ackEncode (seq : Byte) : EncodeShape.Statement (.ackEncode seq) := by
  unfold EncodeShape.Statement; revert seq; decide

theorem EncodeShape.seqInc (seq : Byte) : EncodeShape.Statement (.seqInc seq) := by
  unfold EncodeShape.Statement; revert seq; decide

theorem EncodeShape.seqEarlier (seq : Byte) : EncodeShape.Statement (.seqEarlier seq) := by
  unfold EncodeShape.Statement; revert seq; decide

theorem EncodeShape.sndStart : EncodeShape.Statement .sndStart := by
  unfold EncodeShape.Statement; decide

theorem EncodeShape.rcvStart : EncodeShape.Statement .rcvStart := by
  unfold EncodeShape.Statement; decide

end Sys2Proof.Laws
end

