-- ==== Sys2Proof/Tests/Slice0.lean ====
section
/-!
SUPPORT. Tests: expected values are those of spec/95_test_vectors.md (the section is named), or follow by
hand from the rule named. Then, for every obligation with hypotheses, a witness that meets them.
-/

open Sys2Proof Sys2Proof.Machine

set_option maxRecDepth 10000

namespace Sys2Proof.Tests

/-! ### Bytes and states (helpers) -/

/-- b"HELLO" -/
def hello : ByteString := [0x48, 0x45, 0x4C, 0x4C, 0x4F]

/-- b"WORLD" -/
def world : ByteString := [0x57, 0x4F, 0x52, 0x4C, 0x44]

/-- b"000000174", the HEX9 digest of b"HELLO" (95, section 2.2). -/
def helloDigest : ByteString := [0x30, 0x30, 0x30, 0x30, 0x30, 0x30, 0x31, 0x37, 0x34]

/-- b"000000188", the HEX9 digest of b"WORLD" (95, section 2.2). -/
def worldDigest : ByteString := [0x30, 0x30, 0x30, 0x30, 0x30, 0x30, 0x31, 0x38, 0x38]

/-- F1 of 95. -/
def f1 : ByteString := hello ++ helloDigest ++ [0x01]

/-- F2 of 95. -/
def f2 : ByteString := world ++ worldDigest ++ [0x02]

/-- F1c of 95: F1 with its fifth byte changed. -/
def f1c : ByteString := [0x48, 0x45, 0x4C, 0x4C, 0x50] ++ helloDigest ++ [0x01]

/-- b"NotSame" -/
def notSame : ByteString := [0x4E, 0x6F, 0x74, 0x53, 0x61, 0x6D, 0x65]

/-- The parameters of the vectors marked "C = 5". -/
def cfg5 : Params := { Params.default with chunkSize := 5, rxMsgMax := 15 }

/-- A block with C = 5 and PMEM = b"HELLOWORLD!". -/
def base : State :=
  { State.resetWith cfg5 0 with pmem := Memory.writeBytes [] 0 (hello ++ world ++ [0x21]) }

/-- The reset state with an input in IBUF. -/
def withInput (v : ByteString) : State :=
  { State.reset with ibuf := Memory.writeBytes [] 0 v, inLen := toWord v.length }

/-- A sender with its first frame to send (program P3, line 5). -/
def idle : State := { base with plen := 10, snd := { Sender.reset with state := .idle, plen := 10 } }

/-- A sender waiting for the ack of F1 (program P3, after line 5). -/
def waiting : State :=
  { base with
    plen := 10
    snd :=
      { Sender.reset with
        state := .awaitingAck, plen := 10, frame := Memory.writeBytes [] 0 f1, flen := 15 } }

/-- A sender that has sent everything (program P3, after line 10). -/
def finished : State :=
  { base with snd := { Sender.reset with state := .idle, plen := 10, off := 10, expectedAck := 0x03 } }

/-- A receiver that expects F2 (95, section 2.6). -/
def listening : State := { base with rcv := { Receiver.reset with state := .listening, expectedSeq := 0x02 } }

/-- `s` with one event waiting on SND_RX. -/
def sndEv (e : RxEvent) (s : State) : State := { s with sndRx := [e.signals] }

/-- `s` with one event waiting on RCV_RX. -/
def rcvEv (e : RxEvent) (s : State) : State := { s with rcvRx := [e.signals] }

/-- What a state shows, where the outcome is a next state. -/
def seen {α : Type} (o : Result) (f : State → α) : Option α :=
  match o with
  | .next t => some (f t)
  | .fault _ => none
  | .refused _ => none

theorem seen_some {α : Type} {o : Result} {f : State → α} {v : α} (h : seen o f = some v) :
    ∃ t, o = .next t ∧ f t = v := by
  cases o with
  | next t => exact ⟨t, rfl, by simpa [seen] using h⟩
  | fault r => cases r
  | refused r => simp [seen] at h

/-- Why an outcome is a refusal, where it is one. -/
def refusal (o : Result) : Option Refusal :=
  match o with
  | .next _ => none
  | .fault _ => none
  | .refused r => some r

/-- OBUF[0..OUT_LEN). -/
def output (s : State) : ByteString := s.readBytes .obuf 0 s.outLen.toNat

/-! ### Well-formedness: each check refuses an ill-formed term -/

theorem test_chunkSize_zero_refused : { Params.default with chunkSize := 0 }.legal = false := by decide
theorem test_chunkSize_too_big_refused :
    { Params.default with chunkSize := 4087 }.legal = false ∧
      { Params.default with chunkSize := 4086 }.legal = true := by decide
theorem test_retryLimit_refused : { Params.default with retryLimit := 256 }.legal = false := by decide
theorem test_timeoutLimit_refused : { Params.default with timeoutLimit := 0 }.legal = false := by decide
theorem test_staleWindow_refused : { Params.default with staleWindow := 256 }.legal = false := by decide
theorem test_rxMsgMax_refused : { Params.default with rxMsgMax := 9 }.legal = false := by decide
theorem test_ibufSize_refused : { Params.default with ibufSize := 65537 }.legal = false := by decide
theorem test_obufSize_refused :
    { Params.default with chunkSize := 1, obufSize := 10 }.obufSizeLegal = false := by decide
theorem test_pmemSize_refused : { Params.default with pmemSize := 0 }.legal = false := by decide

/-- R76: a reserved OP, and RSVD other than 0 (95, section 2.1). -/
theorem test_commandWord_illegal :
    commandWordLegal 0x00000017 = false ∧ commandWordLegal 0x80000030 = false ∧
      commandWordLegal 0x00000000 = false ∧ commandWordLegal 0x0000FF01 = true := by decide

/-- R11: a block with an illegal configuration does not step. -/
theorem test_step_illegal_config :
    refusal (step { State.reset with cfg := { Params.default with retryLimit := 0 } }) =
      some .illegalConfig := by decide

/-! ### Decode: words written out bit by bit, RSVD, SEQ, OP (R73, R75) -/

theorem test_decode_cksumCompute : decode 0b0000000000000000_00000000_00000001 = .command .cksumCompute := by
  decide
theorem test_decode_cksumVerify : decode 0b0000000000000000_00000000_00000010 = .command .cksumVerify := by
  decide
theorem test_decode_chunkCount : decode 0b0000000000000000_00000000_00010000 = .command .chunkCount := by
  decide
theorem test_decode_chunkGet : decode 0b0000000000000000_00000000_00010001 = .command .chunkGet := by decide
theorem test_decode_frameEncode :
    decode 0b0000000000000000_00000001_00010010 = .command (.frameEncode 0x01) := by decide
theorem test_decode_frameDecode : decode 0b0000000000000000_00000000_00010011 = .command .frameDecode := by
  decide
theorem test_decode_tokenClassify : decode 0b0000000000000000_00000000_00010100 = .command .tokenClassify := by
  decide
theorem test_decode_tokenEmit : decode 0b0000000000000000_00000000_00010101 = .command .tokenEmit := by decide
theorem test_decode_ackEncode :
    decode 0b0000000000000000_11111111_00010110 = .command (.ackEncode 0xFF) := by decide
theorem test_decode_seqInc : decode 0b0000000000000000_10000000_00100000 = .command (.seqInc 0x80) := by decide
theorem test_decode_seqEarlier :
    decode 0b0000000000000000_00000001_00100001 = .command (.seqEarlier 0x01) := by decide
theorem test_decode_sndStart : decode 0b0000000000000000_00000000_00110000 = .command .sndStart := by decide
theorem test_decode_rcvStart : decode 0b0000000000000000_00000000_00110001 = .command .rcvStart := by decide
theorem test_decodeTableWord :
    decodeTableWord 32 0x00000112 = some (.frameEncode 0x01) ∧ decodeTableWord 32 0x00000000 = none := by
  decide

/-- The assembler's word of `FRAME_ENCODE seq=256` (95, program P2, line 2). -/
theorem test_encode_frameEncode_256 : encode (.frameEncode (seqCode 256)) = 0x00000012 := by decide

/-! ### Steps: the first command after reset (R25) -/

/-- RCV_START from reset (R133, example). -/
theorem test_first_command :
    seen (step (State.reset.withFetchWord 32 0x00000031)) (fun t => (t.readReg .rcvStatus, t.sched)) =
      some (0x00010001, []) := by decide

/-! ### Commands (95, sections 2.2 to 2.5 and 2.7) -/

theorem test_cksumCompute :
    seen (exec .cksumCompute (withInput hello)) (fun t =>
      (t.result, output t, t.readReg .dgst0, t.readReg .dgst1, t.readReg .dgst2)) =
      some (372, helloDigest, 0x30303030, 0x37313030, 0x00000034) := by decide

theorem test_cksumCompute_bin9 :
    seen (exec .cksumCompute { withInput hello with cfg := { Params.default with digestFormat := .bin9 } })
      output = some [0x00, 0x00, 0x00, 0x00, 0x00, 0x00, 0x00, 0x01, 0x74] := by decide

theorem test_cksumVerify :
    seen (exec .cksumVerify (withInput (hello ++ helloDigest))) (fun t => t.result) = some 1 := by decide

theorem test_cksumVerify_short :
    seen (exec .cksumVerify (withInput (List.replicate 8 0x30))) (fun t => t.readReg .err) = some 0x04 := by
  decide

theorem test_chunkCount :
    seen (exec .chunkCount { base with plen := 11 }) (fun t => t.result) = some 3 := by decide

theorem test_chunkCount_multiple :
    seen (exec .chunkCount { base with plen := 10 }) (fun t => t.result) = some 2 := by decide

theorem test_chunkGet_last :
    seen (exec .chunkGet { base with plen := 11, arg := 2 }) (fun t => (t.result, output t)) =
      some (1, [0x21]) := by decide

theorem test_chunkGet_range :
    seen (exec .chunkGet { base with plen := 11, arg := 3 }) (fun t => (t.readReg .err, t.outLen)) =
      some (0x05, 0) := by decide

theorem test_frameEncode :
    seen (exec (.frameEncode 0x01) (withInput hello)) (fun t => (t.result, output t, t.dgst)) =
      some (15, f1, helloDigest) := by decide

theorem test_frameEncode_too_long :
    seen (exec (.frameEncode 0x01) { State.reset with inLen := 1001 }) (fun t => t.readReg .err) =
      some 0x03 := by decide

theorem test_frameDecode_corrupted :
    seen (exec .frameDecode (withInput f1c)) (fun t => (t.result, t.outLen, t.dgst)) =
      some (0x00000001, 5, helloDigest) := by decide

theorem test_frameDecode_valid :
    seen (exec .frameDecode (withInput f1)) (fun t => (t.result, output t)) =
      some (0x00000101, hello) := by decide

theorem test_tokenClassify :
    seen (exec .tokenClassify (withInput notSame)) (fun t => t.result) = some 4 := by decide

/-- b"done" is not DONE. -/
theorem test_tokenClassify_case :
    seen (exec .tokenClassify { withInput [0x64, 0x6F, 0x6E, 0x65] with result := 7 }) (fun t => t.result) =
      some 0 := by decide

theorem test_tokenEmit :
    seen (exec .tokenEmit { State.reset with arg := 4 }) (fun t => (t.result, output t)) =
      some (7, notSame) := by decide

theorem test_tokenEmit_whole_arg :
    seen (exec .tokenEmit { State.reset with arg := 0x00000101 }) (fun t => t.readReg .err) = some 0x05 := by
  decide

theorem test_ackEncode :
    seen (exec (.ackEncode (seqCode 256)) State.reset) (fun t => (t.result, output t)) = some (1, [0x00]) := by
  decide

theorem test_seqInc_255 :
    seen (exec (.seqInc 0xFF) State.reset) (fun t => t.result) = some 0x00010000 := by decide

theorem test_seqInc_256 :
    seen (exec (.seqInc 0x00) State.reset) (fun t => t.result) = some 0x00000101 := by decide

theorem test_seqEarlier_wrap :
    seen (exec (.seqEarlier 0x01) { State.reset with arg := 0xABCDEF00 }) (fun t => t.result) = some 1 := by
  decide

theorem test_seqEarlier_window :
    seen (exec (.seqEarlier 0x80) { State.reset with arg := 0x01 }) (fun t => t.result) = some 1 ∧
      seen (exec (.seqEarlier 0x81) { State.reset with arg := 0x01 }) (fun t => t.result) = some 0 := by
  decide

theorem test_sndStart :
    seen (exec .sndStart { base with plen := 10 }) (fun t => (t.result, t.readReg .sndStatus)) =
      some (2, 0x00010001) := by decide

theorem test_sndStart_busy :
    seen (exec .sndStart { idle with plen := 65537 }) (fun t => (t.readReg .err, t.snd)) =
      some (0x02, idle.snd) := by decide

theorem test_rcvStart :
    seen (exec .rcvStart { listening with result := 9 }) (fun t => (t.readReg .err, t.result)) =
      some (0x02, 9) := by decide

theorem test_rcvStart_aborted :
    seen (exec .rcvStart { base with rcv := { Receiver.reset with state := .aborted, cause := .transportError } })
      (fun t => t.readReg .rcvStatus) = some 0x00010001 := by decide

/-! ### Engine steps (95, sections 2.5 and 2.6) -/

theorem test_sender_build :
    (senderStep idle).sndTx = [f1] ∧ (senderStep idle).readReg .sndStatus = 0x00010002 ∧
      (senderStep idle).readReg .sndFlen = 15 := by decide

theorem test_sender_done :
    (senderStep finished).sndTx = [[0x44, 0x4F, 0x4E, 0x45]] ∧
      (senderStep finished).readReg .sndStatus = 0x00030003 := by decide

theorem test_sender_ack :
    (senderStep (sndEv (.msg [0x01]) waiting)).readReg .sndStatus = 0x00020001 ∧
      (senderStep (sndEv (.msg [0x01]) waiting)).readReg .sndOff = 5 := by decide

theorem test_sender_mismatch :
    (senderStep (sndEv (.msg notSame) waiting)).sndTx = [f1] ∧
      (senderStep (sndEv (.msg notSame) waiting)).readReg .sndStatus = 0x0001000A := by decide

theorem test_sender_timeout :
    (senderStep (sndEv .timeout waiting)).sndTx = [f1] ∧
      (senderStep (sndEv .timeout waiting)).readReg .sndStatus = 0x0001010A := by decide

theorem test_sender_exhausted :
    let s := sndEv .timeout { waiting with snd := { waiting.snd with retryCount := 2, resendPending := true } }
    (senderStep s).sndTx = [] ∧ (senderStep s).readReg .sndStatus = 0x0101030C := by decide

theorem test_sender_error : (senderStep (sndEv .error waiting)).readReg .sndStatus = 0x03010004 := by decide

theorem test_receiver_deliver :
    let t := receiverStep (rcvEv (.msg f2) listening)
    t.dlv = [world] ∧ t.rcvTx = [[0x02]] ∧ t.readReg .rcvStatus = 0x00030009 ∧ t.readReg .rcvDcount = 5 := by
  decide

theorem test_receiver_stale :
    let t := receiverStep (rcvEv (.msg f1) listening)
    t.dlv = [] ∧ t.rcvTx = [[0x01]] ∧ t.readReg .rcvStatus = 0x00020001 := by decide

theorem test_receiver_bad_checksum :
    let t := receiverStep (rcvEv (.msg f1c) listening)
    t.dlv = [] ∧ t.rcvTx = [notSame] ∧ t.readReg .rcvStatus = 0x00020001 := by decide

/-- b"WORLD000000188\x03" (d = 255). -/
theorem test_receiver_future :
    (receiverStep (rcvEv (.msg (world ++ worldDigest ++ [0x03])) listening)).rcvTx = [notSame] := by decide

theorem test_receiver_too_long :
    (receiverStep (rcvEv (.msg (0x30 :: f2)) listening)).rcvTx = [notSame] := by decide

theorem test_receiver_done :
    let t := receiverStep (rcvEv (.msg (Token.wire .done)) listening)
    t.rcvTx = [] ∧ t.readReg .rcvStatus = 0x00020002 := by decide

theorem test_receiver_unicode :
    let t := receiverStep (rcvEv (.msg f2) { listening with cfg := { cfg5 with textCheck := .allBut [world] } })
    t.dlv = [] ∧ t.rcvTx = [[0x55, 0x6E, 0x69, 0x63, 0x6F, 0x64, 0x65]] ∧ t.readReg .rcvStatus = 0x00020001 := by
  decide

theorem test_receiver_timeouts :
    let t := receiverStep (rcvEv .timeout { listening with rcv := { listening.rcv with timeoutCount := 1 } })
    t.rcvTx = [Token.wire .timeout] ∧ t.readReg .rcvStatus = 0x02020203 := by decide

/-! ### Host accesses (95, section 2.8) -/

theorem test_cfg_registers :
    State.reset.readReg .cfgC = 0x000003E8 ∧ State.reset.readReg .cfgLimits = 0x007F0203 ∧
      State.reset.readReg .cfgRxmax = 1010 := by decide

theorem test_read_past_ibuf :
    seen (hostAccess (.readByte 0x00011000) State.reset) (fun t => t.hostReads) = some [.byte 0] := by decide

theorem test_write_pmem_busy :
    seen (hostAccess (.writeByte 0x80000000 0x4A) waiting) (fun t => (t.readReg .err, t.pmem)) =
      some (0x02, waiting.pmem) := by decide

theorem test_misaligned_refused :
    refusal (hostAccess (.readWord 0x00000002) State.reset) = some .registerAccess ∧
      refusal (hostAccess (.otherWidth 0x00010000 16 false) State.reset) = some .bufferAccess := by decide

/-- `LOAD_IN b"HELLO"` (R86) is five byte writes and a write of IN_LEN (95, program P2, line 1). -/
theorem test_asm_load_in :
    asmLoadIn hello =
      [.host (.writeByte 0x00010000 0x48), .host (.writeByte 0x00010001 0x45),
        .host (.writeByte 0x00010002 0x4C), .host (.writeByte 0x00010003 0x4C),
        .host (.writeByte 0x00010004 0x4F), .host (.writeWord 0x10 5)] := by decide

/-! ### Witnesses: each obligation's hypotheses, met together -/

/-- `s` with one action to perform next. -/
def next (act : Action) (s : State) : State := { s with sched := [act] }

theorem next_not_reset {act : Action} {s : State} (h : act ≠ .reset) (rest : List Action) :
    (next act s).sched ≠ .reset :: rest := by
  intro e
  simp only [next, List.cons.injEq] at e
  exact h e.1

/-- A block whose IBUF is larger than its OBUF, so that FRAME_DECODE can meet its output bound. -/
def smallObuf : State :=
  { State.reset with cfg := { Params.default with chunkSize := 1, rxMsgMax := 11, obufSize := 11 } }

theorem witness_DecodeEncodeRoundTrip : (Instr.seqInc 0xFF).wellFormed = true := by decide

theorem witness_DecodeTotalByTable :
    commandWordLegal 0x0000FF31 = true ∧ commandWordLegal 0x00000032 = false := by decide

theorem witness_CommandSelectedUnderMask :
    decode 0x00000112 = .command (.frameEncode 0x01) ∧ readsSeq (.frameEncode 0x01) = true ∧
      decode 0x0000FF30 = .command .sndStart ∧ readsSeq .sndStart = false := by decide

theorem witness_StepRunsDecodedCommand :
    let s := next (.host (.writeWord 0 0x0000FF31)) State.reset
    s.cfg.legal = true ∧ decode 0x0000FF31 = .command .rcvStart ∧ Instr.rcvStart.wellFormed = true ∧
      s.sched = .host (.writeWord 0 0x0000FF31) :: [] := by decide

theorem witness_IllegalWordOnlySetsErr :
    let s := next (.host (.writeWord 0 0x00010001)) State.reset
    s.cfg.legal = true ∧ s.sched = .host (.writeWord 0 0x00010001) :: [] ∧
      commandWordLegal 0x00010001 = false := by decide

theorem witness_StepPerformsScheduledAction :
    State.reset.cfg.legal = true ∧ State.reset.sched = [] ∧
      (next .senderStep State.reset).sched = .senderStep :: [] ∧
      (next .receiverStep State.reset).sched = .receiverStep :: [] ∧
      (next (.host (.readByte 0)) State.reset).sched = .host (.readByte 0) :: [] := by decide

/-- A legal configuration at the ends of its ranges. -/
def edge : Params where
  chunkSize := 1
  retryLimit := 255
  timeoutLimit := 1
  digestFormat := .bin9
  staleWindow := 255
  textCheck := .free 0
  rxMsgMax := 10
  ibufSize := 11
  obufSize := 65536
  pmemSize := 2 ^ 31

theorem witness_ConfigurationRangesAndRegisters :
    State.reset.cfg.legal = true ∧
      edge.legal = true ∧
      { Params.default with pmemSize := 2 ^ 31 + 1 }.legal = false := by decide

theorem witness_CksumComputeWritesDigestAndSum :
    let p := { State.reset with inLen := 4097 }
    let q := { State.reset with inLen := 4096 }
    p.cfg.ibufSize < p.inLen.toNat ∧ q.inLen.toNat ≤ q.cfg.ibufSize := by decide

theorem witness_CksumVerifyComparesDigest :
    let p := { State.reset with inLen := 4097 }
    let q := { State.reset with inLen := 8 }
    let r := { State.reset with inLen := 9 }
    p.cfg.ibufSize < p.inLen.toNat ∧ (q.inLen.toNat ≤ q.cfg.ibufSize ∧ q.inLen.toNat < 9) ∧
      (r.inLen.toNat ≤ r.cfg.ibufSize ∧ 9 ≤ r.inLen.toNat) := by decide

theorem witness_ChunkCountIsCeiling :
    let p := { State.reset with plen := 65537 }
    let q := { State.reset with plen := 65536 }
    p.cfg.pmemSize < p.plen.toNat ∧ q.plen.toNat ≤ q.cfg.pmemSize := by decide

theorem witness_ChunkGetCopiesChunk :
    let p := { base with plen := 65537 }
    let q := { base with plen := 11, arg := 3 }
    let r := { base with plen := 11, arg := 2 }
    (1 ≤ p.cfg.chunkSize ∧ p.cfg.pmemSize < p.plen.toNat) ∧
      (q.plen.toNat ≤ q.cfg.pmemSize ∧ ceilDiv q.plen.toNat q.cfg.chunkSize ≤ q.arg.toNat) ∧
      (r.plen.toNat ≤ r.cfg.pmemSize ∧ r.arg.toNat < ceilDiv r.plen.toNat r.cfg.chunkSize) := by decide

theorem witness_FrameEncodeBuildsFrame :
    let p := { State.reset with inLen := 1001 }
    let q := { State.reset with inLen := 4097 }
    let r := { State.reset with inLen := 1000 }
    p.cfg.chunkSize < p.inLen.toNat ∧ q.cfg.ibufSize < q.inLen.toNat ∧
      (r.inLen.toNat ≤ r.cfg.ibufSize ∧ r.inLen.toNat ≤ r.cfg.chunkSize) := by decide

theorem witness_FrameDecodeSplitsFrame :
    let p := { smallObuf with inLen := 4097 }
    let q := { smallObuf with inLen := 9 }
    let r := { smallObuf with inLen := 22 }
    let u := { smallObuf with inLen := 21 }
    smallObuf.cfg.legal = true ∧ p.cfg.ibufSize < p.inLen.toNat ∧
      (q.inLen.toNat ≤ q.cfg.ibufSize ∧ q.inLen.toNat < 10) ∧
      (r.inLen.toNat ≤ r.cfg.ibufSize ∧ 10 ≤ r.inLen.toNat ∧ r.cfg.obufSize < r.inLen.toNat - 10) ∧
      (u.inLen.toNat ≤ u.cfg.ibufSize ∧ 10 ≤ u.inLen.toNat ∧ u.inLen.toNat - 10 ≤ u.cfg.obufSize) := by decide

theorem witness_TokenClassifyGivesCode :
    let p := { State.reset with inLen := 4097 }
    let q := { State.reset with inLen := 4096 }
    p.cfg.ibufSize < p.inLen.toNat ∧ q.inLen.toNat ≤ q.cfg.ibufSize := by decide

theorem witness_TokenEmitWritesToken :
    (0 : Word).toNat < 1 ∧ 4 < (5 : Word).toNat ∧ (1 : Word).toNat = Token.done.code ∧
      (4 : Word).toNat = Token.mismatch.code := by decide

theorem witness_SndStartOpensSession :
    idle.snd.state = .idle ∧ waiting.snd.state = .awaitingAck ∧
      (base.snd.state = .off ∧ ({ base with plen := 65537 } : State).cfg.pmemSize < 65537) ∧
      (base.snd.state = .off ∧ ({ base with plen := 65536 } : State).plen.toNat ≤ base.cfg.pmemSize) ∧
      (senderStep finished).snd.state = .done ∧
      (senderStep (sndEv .error waiting)).snd.state = .aborted := by decide

theorem witness_RcvStartOpensSession :
    listening.rcv.state = .listening ∧ base.rcv.state = .off ∧
      (receiverStep (rcvEv (.msg (Token.wire .done)) listening)).rcv.state = .done ∧
      (receiverStep (rcvEv .error listening)).rcv.state = .aborted := by decide

theorem witness_CommandErrorsChangeOnlyErr : ∃ t, exec .rcvStart listening = .next t ∧ t.err ≠ .eNone :=
  ⟨_, rfl, by decide⟩

theorem witness_SenderBuildsAndSendsFrame :
    let last := { idle with snd := { idle.snd with off := 5, plen := 6 } }
    (idle.cfg.legal = true ∧ idle.snd.state = .idle ∧ idle.snd.off.toNat < idle.snd.plen.toNat) ∧
      (last.cfg.legal = true ∧ last.snd.state = .idle ∧ last.snd.off.toNat < last.snd.plen.toNat) := by decide

theorem witness_SenderSendsDoneAtEnd : finished.snd.state = .idle ∧ finished.snd.off = finished.snd.plen := by
  decide

theorem witness_SenderAdvancesOrRetransmits :
    let p := sndEv (.msg [0x01]) waiting
    let q := sndEv (.msg [0x01, 0x01]) waiting
    (p.snd.state = .awaitingAck ∧ p.sndRx = (RxEvent.msg [0x01]).signals :: [] ∧
        (RxEvent.msg [0x01]).signals.event = some (.msg [p.snd.expectedAck])) ∧
      (q.snd.state = .awaitingAck ∧ q.sndRx = (RxEvent.msg [0x01, 0x01]).signals :: [] ∧
        (RxEvent.msg [0x01, 0x01]).signals.event = some (.msg [0x01, 0x01]) ∧
        [0x01, 0x01] ≠ [q.snd.expectedAck]) := by decide

theorem witness_SenderTimeoutsAndAborts :
    let p := sndEv .timeout { waiting with snd := { waiting.snd with retryCount := 1 } }
    let q := sndEv .timeout { waiting with snd := { waiting.snd with retryCount := 2 } }
    let r := sndEv .error waiting
    (p.snd.state = .awaitingAck ∧ p.sndRx = RxEvent.timeout.signals :: [] ∧
        p.snd.retryCount.toNat < p.cfg.retryLimit ∧ p.cfg.retryLimit ≤ 255 ∧
        RxEvent.timeout.signals.event = some .timeout ∧ p.snd.retryCount.toNat + 1 ≠ p.cfg.retryLimit) ∧
      (q.snd.state = .awaitingAck ∧ q.snd.retryCount.toNat < q.cfg.retryLimit ∧
        q.snd.retryCount.toNat + 1 = q.cfg.retryLimit) ∧
      (r.snd.state = .awaitingAck ∧ r.sndRx = RxEvent.error.signals :: [] ∧
        r.snd.retryCount.toNat < r.cfg.retryLimit ∧ RxEvent.error.signals.event = some .error) := by decide

theorem witness_ReceiverEndsOnDoneOrError :
    let p := rcvEv (.msg (Token.wire .done)) listening
    let q := rcvEv .error listening
    (p.rcv.state = .listening ∧ p.rcvRx = (RxEvent.msg (Token.wire .done)).signals :: [] ∧
        (RxEvent.msg (Token.wire .done)).signals.event = some (.msg [0x44, 0x4F, 0x4E, 0x45])) ∧
      (q.rcv.state = .listening ∧ q.rcvRx = RxEvent.error.signals :: [] ∧
        RxEvent.error.signals.event = some .error) := by decide

/-- Nine bytes, sixteen bytes, a bad checksum, and a seq code just out of the window. -/
theorem witness_ReceiverRejectsWithMismatch :
    let nine := List.replicate 9 (0x30 : Byte)
    let far := world ++ worldDigest ++ [0x82]
    (listening.rcv.state = .listening ∧ nine.length < 10 ∧ nine ≠ [0x44, 0x4F, 0x4E, 0x45]) ∧
      (rcvEv (.msg nine) listening).rcvRx = (RxEvent.msg nine).signals :: [] ∧
      (RxEvent.msg nine).signals.event = some (.msg nine) ∧
      listening.cfg.rxMsgMax < (0x30 :: f2).length ∧
      (digest listening.cfg.digestFormat world ≠ helloDigest ∧ helloDigest.length = 9) ∧
      (far = world ++ worldDigest ++ [0x82] ∧ worldDigest.length = 9 ∧ 0x82 ≠ listening.rcv.expectedSeq ∧
        earlier listening.cfg.staleWindow 0x82 listening.rcv.expectedSeq = false) := by decide

theorem witness_ReceiverTakesExpectedFrame :
    let p := rcvEv (.msg f2) listening
    let q := { p with cfg := { cfg5 with textCheck := .allBut [world] } }
    (p.rcv.state = .listening ∧ p.rcvRx = (RxEvent.msg f2).signals :: [] ∧
        (RxEvent.msg f2).signals.event =
          some (.msg (world ++ digest p.cfg.digestFormat world ++ [p.rcv.expectedSeq])) ∧
        world.length + 10 ≤ p.cfg.rxMsgMax ∧ textOk p.cfg.textCheck world = true) ∧
      (q.rcv.state = .listening ∧ q.rcvRx = (RxEvent.msg f2).signals :: [] ∧
        (RxEvent.msg f2).signals.event =
          some (.msg (world ++ digest q.cfg.digestFormat world ++ [q.rcv.expectedSeq])) ∧
        world.length + 10 ≤ q.cfg.rxMsgMax ∧ textOk q.cfg.textCheck world = false) := by decide

theorem witness_ReceiverReacknowledgesEarlierFrame :
    let s := rcvEv (.msg f1) listening
    s.rcv.state = .listening ∧ s.rcvRx = (RxEvent.msg f1).signals :: [] ∧
      (RxEvent.msg f1).signals.event = some (.msg (hello ++ digest s.cfg.digestFormat hello ++ [0x01])) ∧
      hello.length + 10 ≤ s.cfg.rxMsgMax ∧ 0x01 ≠ s.rcv.expectedSeq ∧
      earlier s.cfg.staleWindow 0x01 s.rcv.expectedSeq = true := by decide

theorem witness_ReceiverTimeoutsAndAborts :
    let p := rcvEv .timeout listening
    let q := rcvEv .timeout { listening with rcv := { listening.rcv with timeoutCount := 1 } }
    (p.rcv.state = .listening ∧ p.rcvRx = RxEvent.timeout.signals :: [] ∧
        RxEvent.timeout.signals.event = some .timeout ∧ p.rcv.timeoutCount.toNat < p.cfg.timeoutLimit ∧
        p.cfg.timeoutLimit ≤ 255 ∧ p.rcv.timeoutCount.toNat + 1 ≠ p.cfg.timeoutLimit) ∧
      (q.rcv.state = .listening ∧ q.rcvRx = RxEvent.timeout.signals :: [] ∧
        q.rcv.timeoutCount.toNat < q.cfg.timeoutLimit ∧
        q.rcv.timeoutCount.toNat + 1 = q.cfg.timeoutLimit) := by decide

theorem witness_EnginesWaitWithoutEvent :
    let x : RxSignals := { kind := 0, data := hello }
    base.snd.state = .off ∧ (waiting.snd.state = .awaitingAck ∧ waiting.sndRx = []) ∧
      (({ waiting with sndRx := [x] } : State).sndRx = x :: [] ∧ x.kind = 0) ∧
      base.rcv.state ≠ .listening ∧ (listening.rcv.state = .listening ∧ listening.rcvRx = []) ∧
      ({ listening with rcvRx := [x] } : State).rcvRx = x :: [] ∧
      ({ x with kind := 0b01 } : RxSignals).kind = 0b01 ∧ ({ x with kind := 0b10 } : RxSignals).kind = 0b10 ∧
      ({ x with kind := 0b11 } : RxSignals).kind = 0b11 := by decide

theorem witness_DigestIsOrderFreeSum : List.Perm hello [0x4F, 0x4C, 0x4C, 0x45, 0x48] := by decide

theorem witness_DigestFormatsByteByByte :
    0 < 9 ∧ 8 < 9 ∧ (1 : Nat) = (372 % 2 ^ 36) >>> (4 * (8 - 6)) &&& 0xF := by decide

theorem witness_SingleByteChangeIsDetected :
    (0x4F : Byte) ≠ 0x50 ∧ bsum ([0x48, 0x45, 0x4C, 0x4C] ++ [0x4F] ++ []) < 16 ^ 9 - 255 := by decide

theorem witness_ChunksSliceThePayload :
    let p := hello ++ world ++ [0x21]
    1 ≤ 5 ∧ 0 < ceilDiv p.length 5 ∧ 2 < ceilDiv p.length 5 ∧ 1 + 1 < ceilDiv p.length 5 ∧
      2 + 1 = ceilDiv p.length 5 := by decide

theorem witness_FrameFieldsRoundTrip :
    (List.replicate 9 (0x30 : Byte)).length < 10 ∧
      frameFields f1 = some { payload := hello, checksum := helloDigest, seq := 0x01 } := by decide

theorem witness_TokensRecognisedExactly :
    tokenClass notSame = Token.mismatch.code ∧ tokenClass [0x44, 0x4F, 0x4E, 0x45, 0x00] = 0 := by decide

theorem witness_SeqCodesCycleThroughValues : (1 ≤ 1 ∧ 1 ≤ 256) ∧ (1 ≤ 256 ∧ 256 ≤ 256) := by decide

theorem witness_EarlierIsWrapAware : 1 ≤ 1 ∧ 127 ≤ 127 ∧ ((255 : Nat) = 255 ∧ (0x05 : Byte) ≠ 0x03) := by decide

theorem witness_ReadsOnlyAnswer :
    ((0xFC : Word).toNat ≤ 0xFF ∧ (0xFC : Word).toNat % 4 = 0) ∧ 65535 < 65536 ∧ 2147483647 < 2 ^ 31 ∧
      0x58 ≤ 0x58 ∧
      (0x100 ≤ (0x100 : Word).toNat ∧ (0x100 : Word).toNat ≤ 0xFFFF) ∧
      (0x100 ≤ (0xFFFF : Word).toNat ∧ (0xFFFF : Word).toNat ≤ 0xFFFF) ∧
      (0x30000 ≤ (0x30000 : Word).toNat ∧ (0x30000 : Word).toNat ≤ 0x7FFFFFFF) ∧
      (0x30000 ≤ (0x7FFFFFFF : Word).toNat ∧ (0x7FFFFFFF : Word).toNat ≤ 0x7FFFFFFF) := by decide

/-- The last clause's values are met with an active sender too (log 10). -/
theorem witness_IgnoredWritesChangeNothing :
    (0x58 ≤ 0x58 ∧ 0x58 ≤ 0xFC) ∧
      ((0x08 : Word).toNat ≤ 0xFF ∧ (0x08 : Word).toNat % 4 = 0 ∧ (0x08 : Word).toNat ≠ 0x00 ∧
        (0x08 : Word).toNat ≠ 0x04 ∧ (0x08 : Word).toNat ≠ 0x10 ∧ (0x08 : Word).toNat ≠ 0x18) ∧
      ((0xFC : Word).toNat ≤ 0xFF ∧ (0xFC : Word).toNat % 4 = 0 ∧ (0xFC : Word).toNat ≠ 0x00 ∧
        (0xFC : Word).toNat ≠ 0x04 ∧ (0xFC : Word).toNat ≠ 0x10 ∧ (0xFC : Word).toNat ≠ 0x18) ∧
      (0x20000 ≤ (0x20000 : Word).toNat ∧ (0x20000 : Word).toNat ≤ 0x2FFFF) ∧
      (0x20000 ≤ (0x2FFFF : Word).toNat ∧ (0x2FFFF : Word).toNat ≤ 0x2FFFF) ∧
      (0x100 ≤ (0xFFFF : Word).toNat ∧ (0xFFFF : Word).toNat ≤ 0xFFFF) ∧
      (0x30000 ≤ (0x30000 : Word).toNat ∧ (0x30000 : Word).toNat ≤ 0x7FFFFFFF) ∧
      (State.reset.cfg.ibufSize ≤ 4096 ∧ 4096 < 65536) ∧
      (State.reset.cfg.pmemSize ≤ 65536 ∧ 65536 < 2 ^ 31) ∧
      (waiting.senderActive = true ∧ waiting.cfg.pmemSize ≤ 65536 ∧ waiting.cfg.pmemSize ≤ 2147483647 ∧
        2147483647 < 2 ^ 31) := by decide

theorem witness_PayloadWritesAreGuarded :
    (65535 < waiting.cfg.pmemSize ∧ 65535 < 2 ^ 31) ∧ waiting.snd.state = .awaitingAck ∧
      idle.snd.state = .idle ∧ base.snd.state = .off ∧ (senderStep finished).snd.state = .done ∧
      (senderStep (sndEv .error waiting)).snd.state = .aborted := by decide

theorem witness_PlainWritesReadBack : 4095 < State.reset.cfg.ibufSize ∧ 4095 < 65536 := by decide

theorem witness_WrongAccessesAreRefused :
    ((0xFF : Word).toNat ≤ 0xFF ∧ (0xFF : Word).toNat % 4 ≠ 0) ∧ 0x100 ≤ (0x100 : Word).toNat := by decide

theorem witness_PackedRegistersHoldTheirFields :
    ({ base with dgst := helloDigest } : State).dgst = helloDigest ∧ helloDigest.length = 9 := by decide

theorem witness_ResetSetsEveryField :
    (next .reset waiting).cfg.legal = true ∧ (next .reset waiting).sched = .reset :: [] := by decide

theorem witness_ResetIsGood : cfg5.legal = true := by decide

/-- A sender that waits with F1 in flight is in a good state. -/
theorem waiting_good : Inv (next .senderStep waiting) := by
  refine ⟨by decide, ?_, ⟨by decide, by decide⟩, ?_, ?_⟩
  · intro sp
    cases sp <;> exact ⟨by decide, by decide⟩
  · exact ⟨⟨by decide, by decide, .inl (by decide), by decide, by decide⟩, by decide, by decide,
      by decide, by decide⟩
  · exact ⟨by decide, by decide, by decide, by decide, by decide⟩

theorem witness_StepKeepsInvariant :
    Inv (next .senderStep waiting) ∧ ∃ t, step (next .senderStep waiting) = .next t :=
  ⟨waiting_good, _, rfl⟩

theorem witness_ParametersFixedTracesAppendOnly : ∃ t, step (next .senderStep idle) = .next t := ⟨_, rfl⟩

theorem witness_EnginesShareNoState :
    let s := sndEv .timeout waiting
    let t := { s with arg := 1, rcvRx := [RxEvent.timeout.signals] }
    let u := rcvEv (.msg f2) listening
    let v := { u with arg := 1, pmem := [] }
    (t.cfg = s.cfg ∧ t.snd = s.snd ∧ t.sndRx = s.sndRx ∧ t.sndTx = s.sndTx ∧ t.pmem = s.pmem ∧
        t.draw = s.draw ∧ t ≠ s) ∧
      (v.cfg = u.cfg ∧ v.rcv = u.rcv ∧ v.rcvRx = u.rcvRx ∧ v.rcvTx = u.rcvTx ∧ v.dlv = u.dlv ∧ v ≠ u) := by
  decide

theorem witness_EndedSessionsAreTerminal :
    (∃ t, step (next (commandAction 0x00000030) (senderStep finished)) = .next t ∧
        (senderStep finished).snd.state = .done ∧ decide (t.snd ≠ (senderStep finished).snd) = true) ∧
      ∃ t, step (next (commandAction 0x00000031) (receiverStep (rcvEv .error listening))) = .next t ∧
        (receiverStep (rcvEv .error listening)).rcv.state = .aborted ∧
        decide (t.rcv ≠ (receiverStep (rcvEv .error listening)).rcv) = true :=
  ⟨⟨_, rfl, by decide, by decide⟩, ⟨_, rfl, by decide, by decide⟩⟩

theorem witness_PayloadFrozenDuringSession :
    ∃ t, waiting.snd.state = .awaitingAck ∧
      (∀ rest, (next (.host (.writeWord 0x18 5)) waiting).sched ≠ .reset :: rest) ∧
      step (next (.host (.writeWord 0x18 5)) waiting) = .next t :=
  ⟨_, rfl, next_not_reset (by decide), rfl⟩

theorem witness_SentMessagesAreFramesInOrder :
    ∃ t, Inv (next .senderStep waiting) ∧ step (next .senderStep waiting) = .next t ∧
      ∀ rest, (next .senderStep waiting).sched ≠ .reset :: rest :=
  ⟨_, waiting_good, rfl, next_not_reset (by decide)⟩

theorem witness_DeliveryOnlyOfExpectedValidFrame :
    ∃ t, step (next .receiverStep (rcvEv (.msg f2) listening)) = .next t ∧
      (∀ rest, (next .receiverStep (rcvEv (.msg f2) listening)).sched ≠ .reset :: rest) ∧
      t.dlv ≠ (next .receiverStep (rcvEv (.msg f2) listening)).dlv :=
  ⟨_, rfl, next_not_reset (by decide), by decide⟩

theorem witness_DuplicateFrameDeliveredOnce :
    let x := (RxEvent.msg (frameBytes .hex9 world 0x02)).signals
    let s := { listening with rcvRx := [x, x], sched := [.receiverStep, .receiverStep] }
    s.cfg.legal = true ∧ s.rcv.state = .listening ∧ world.length + 10 ≤ s.cfg.rxMsgMax ∧
      textOk s.cfg.textCheck world = true ∧
      (let f := frameBytes s.cfg.digestFormat world s.rcv.expectedSeq
       s.rcvRx = (RxEvent.msg f).signals :: (RxEvent.msg f).signals :: []) ∧
      s.sched = .receiverStep :: .receiverStep :: [] := by decide

theorem witness_SenderAbortsAfterRetryLimit :
    let x := RxEvent.timeout.signals
    let s := { idle with sndRx := [x, x, x], sched := List.replicate 4 .senderStep }
    s.cfg.legal = true ∧ s.snd.state = .idle ∧ s.snd.off.toNat < s.snd.plen.toNat ∧ s.snd.retryCount = 0 ∧
      s.sndRx = List.replicate s.cfg.retryLimit RxEvent.timeout.signals ++ [] ∧
      s.sched = List.replicate (s.cfg.retryLimit + 1) .senderStep ++ [] := by decide

theorem witness_ReceiverAbortsAfterTimeoutLimit :
    let x := RxEvent.timeout.signals
    let s := { listening with rcvRx := [x, x], sched := [.receiverStep, .receiverStep] }
    s.cfg.legal = true ∧ s.rcv.state = .listening ∧ s.rcv.timeoutCount = 0 ∧
      s.rcvRx = List.replicate s.cfg.timeoutLimit RxEvent.timeout.signals ++ [] ∧
      s.sched = List.replicate s.cfg.timeoutLimit .receiverStep ++ [] := by decide

/-- Program P3 of 95: b"HELLOWORLD" with C = 5. -/
theorem witness_FaultFreeSessionDeliversPayload :
    let s :=
      { idle with
        rcv := { Receiver.reset with state := .listening }
        rcvRx := [f1, f2, Token.wire .done].map fun m => (RxEvent.msg m).signals
        sndRx := [[0x01], [0x02]].map fun m => (RxEvent.msg m).signals
        sched := sessionTurns 2 }
    let chs := chunks s.cfg.chunkSize (s.readBytes .pmem 0 s.snd.plen.toNat)
    let frames := sessionFrames s.cfg.digestFormat s.snd.expectedAck chs
    s.cfg.legal = true ∧ s.cfg.chunkSize + 10 ≤ s.cfg.rxMsgMax ∧ s.snd.state = .idle ∧ s.snd.off = 0 ∧
      s.snd.plen.toNat ≤ s.cfg.pmemSize ∧ s.rcv.state = .listening ∧ s.rcv.expectedSeq = s.snd.expectedAck ∧
      (∀ ch ∈ chs, textOk s.cfg.textCheck ch = true) ∧
      s.rcvRx = (frames ++ [Token.wire .done]).map (fun m => (RxEvent.msg m).signals) ++ [] ∧
      s.sndRx = (sessionAcks s.snd.expectedAck chs.length).map (fun m => (RxEvent.msg m).signals) ++ [] ∧
      s.sched = sessionTurns chs.length ++ [] := by decide

end Sys2Proof.Tests
end

section
/-!
PROOFS. The configuration of the block (00_scope.md): its legal ranges, the refusal outside them, and the
registers that read it.
-/

namespace Sys2Proof.Machine

open Sys2Proof

/-! ### The legality check -/

/-- A step under a configuration outside the legal ranges is refused, whatever is scheduled. -/
theorem step_illegalConfig {s : State} (h : s.cfg.legal = false) : step s = .refused .illegalConfig := by
  rw [step, h]; rfl

/-- A legal parameter fits its register: 32 bits for the sizes, one byte for the limits. -/
theorem Params.fits_of_legal {p : Params} (h : p.legal = true) :
    (p.chunkSize < 2 ^ 32 ∧ p.ibufSize < 2 ^ 32 ∧ p.obufSize < 2 ^ 32 ∧ p.pmemSize < 2 ^ 32 ∧
      p.rxMsgMax < 2 ^ 32) ∧
    p.retryLimit < 2 ^ 8 ∧ p.timeoutLimit < 2 ^ 8 ∧ p.staleWindow < 2 ^ 8 := by
  rw [Params.legal_iff] at h
  omega

/-! ### The configuration registers -/

theorem toWord_toNat_of_lt {n : Nat} (h : n < 2 ^ 32) : (toWord n).toNat = n := by
  rw [toWord_toNat, Nat.mod_eq_of_lt h]

/-- CFG_LIMITS is four packed bytes, the highest one DIGEST_FORMAT under seven zeros (R33). -/
theorem Params.limitsWord_eq_packWord (p : Params) :
    Params.limitsWord p =
      packWord (BitVec.ofNat 8 p.retryLimit) (BitVec.ofNat 8 p.timeoutLimit)
        (BitVec.ofNat 8 p.staleWindow) (0#7 ++ DigestFormat.code p.digestFormat) := rfl

/-- The fields of CFG_LIMITS hold the whole limits when each fits its byte. -/
theorem Params.limitsWord_toNat {p : Params} (hr : p.retryLimit < 2 ^ 8) (ht : p.timeoutLimit < 2 ^ 8)
    (hs : p.staleWindow < 2 ^ 8) :
    (Params.limitsWord p).toNat =
      p.retryLimit + p.timeoutLimit * 2 ^ 8 + p.staleWindow * 2 ^ 16 +
        (DigestFormat.code p.digestFormat).toNat * 2 ^ 24 := by
  have hcode : (0#7 ++ DigestFormat.code p.digestFormat).toNat = (DigestFormat.code p.digestFormat).toNat := by
    cases p.digestFormat <;> rfl
  rw [Params.limitsWord_eq_packWord, packWord_toNat, hcode, BitVec.toNat_ofNat, BitVec.toNat_ofNat,
    BitVec.toNat_ofNat, Nat.mod_eq_of_lt hr, Nat.mod_eq_of_lt ht, Nat.mod_eq_of_lt hs]
  omega

end Sys2Proof.Machine

namespace Sys2Proof.Proofs

open Sys2Proof Sys2Proof.Machine

/-- Settles O8: the ranges are `Params.legal_iff`, the refusal is the outer test of `step`, and no
register truncates a legal parameter. -/
theorem configurationRangesAndRegisters : Obligations.ConfigurationRangesAndRegisters := by
  refine ⟨fun p => ?ranges, fun s h => step_illegalConfig h, fun s h => ?registers⟩
  case ranges =>
    rw [Params.legal_iff]
    omega
  case registers =>
    obtain ⟨⟨hc, hi, ho, hp, hx⟩, hr, ht, hs⟩ := Params.fits_of_legal h
    refine ⟨toWord_toNat_of_lt hc, toWord_toNat_of_lt hi, toWord_toNat_of_lt ho, toWord_toNat_of_lt hp,
      toWord_toNat_of_lt hx, ?limits⟩
    case limits =>
      refine (Params.limitsWord_toNat hr ht hs).trans ?_
      cases s.cfg.digestFormat <;> rfl

end Sys2Proof.Proofs
end

section
/-!
PROOFS. What an engine's turn reads and what it writes (R46). Two states that agree on all an engine reads
take the same turn; a state agrees with itself, which gives the turn's frame.
-/

namespace Sys2Proof.Machine

open Sys2Proof

/-! ### The sender -/

/-- `t` with the sender, its inbound port and its trace taken from `u`. -/
def State.withSender (t u : State) : State := { t with snd := u.snd, sndRx := u.sndRx, sndTx := u.sndTx }

/-- Two states agree on all that the sender's turn reads (R46); the draw selects PMEM's unwritten bytes. -/
structure SenderAgree (s t : State) : Prop where
  cfg : t.cfg = s.cfg
  snd : t.snd = s.snd
  sndRx : t.sndRx = s.sndRx
  sndTx : t.sndTx = s.sndTx
  pmem : t.pmem = s.pmem
  draw : t.draw = s.draw

/-- The sender once its next frame is built and kept, about to be sent (R122). -/
def State.builtSender (s : State) : Sender :=
  { s.snd with
    frame := Memory.writeBytes s.snd.frame 0
      (frameBytes s.cfg.digestFormat s.chunkAtOff s.snd.expectedAck)
    flen := toWord (s.chunkLen + 10), resendPending := false, state := .awaitingAck }

theorem sndBuild_eq_sendSnd (s : State) :
    sndBuild s =
      ({ s with snd := s.builtSender } : State).sendSnd
        ({ s with snd := s.builtSender } : State).frameInFlight := rfl

section SenderTurn

variable {s t : State}

theorem SenderAgree.refl (s : State) : SenderAgree s s := ⟨rfl, rfl, rfl, rfl, rfl, rfl⟩

/-- A turn that does nothing does nothing in both states. -/
theorem SenderAgree.withSender_self (h : SenderAgree s t) : t = t.withSender s := by
  simp only [State.withSender, ← h.snd, ← h.sndRx, ← h.sndTx]

/-- Both ports lose the sample that was read. -/
theorem SenderAgree.read (h : SenderAgree s t) (more : List RxSignals) :
    SenderAgree { s with sndRx := more } { t with sndRx := more } :=
  ⟨h.cfg, h.snd, rfl, h.sndTx, h.pmem, h.draw⟩

/-- Both senders take the same new value. -/
theorem SenderAgree.setSender (h : SenderAgree s t) (e : Sender) :
    SenderAgree { s with snd := e } { t with snd := e } :=
  ⟨h.cfg, rfl, h.sndRx, h.sndTx, h.pmem, h.draw⟩

theorem SenderAgree.chunkLen (h : SenderAgree s t) : t.chunkLen = s.chunkLen := by
  simp only [State.chunkLen, h.cfg, h.snd]

theorem SenderAgree.chunkAtOff (h : SenderAgree s t) : t.chunkAtOff = s.chunkAtOff :=
  State.chunkAtOff_congr h.cfg (by rw [h.snd]) (by rw [h.snd]) h.pmem h.draw

theorem SenderAgree.frameInFlight (h : SenderAgree s t) : t.frameInFlight = s.frameInFlight :=
  State.frameInFlight_congr (by rw [h.snd]) (by rw [h.snd]) h.draw

theorem SenderAgree.sendSnd (h : SenderAgree s t) (m : ByteString) :
    t.sendSnd m = t.withSender (s.sendSnd m) := by
  simp only [State.sendSnd, State.withSender, ← h.snd, ← h.sndRx, ← h.sndTx]

theorem SenderAgree.abortSender (h : SenderAgree s t) (c : AbortCause) :
    abortSender c t = t.withSender (abortSender c s) := by
  simp only [Machine.abortSender, State.withSender, ← h.snd, ← h.sndRx, ← h.sndTx]

theorem SenderAgree.sndAdvance (h : SenderAgree s t) : sndAdvance t = t.withSender (sndAdvance s) := by
  simp only [Machine.sndAdvance, State.withSender, ← h.snd, ← h.sndRx, ← h.sndTx]

theorem SenderAgree.sndFinish (h : SenderAgree s t) : sndFinish t = t.withSender (sndFinish s) := by
  unfold Machine.sndFinish
  rw [h.snd]
  exact (h.setSender _).sendSnd _

theorem SenderAgree.sndResend (h : SenderAgree s t) : sndResend t = t.withSender (sndResend s) := by
  unfold Machine.sndResend
  rw [h.snd, h.frameInFlight]
  exact (h.setSender _).sendSnd _

/-- Building makes the same frame of the same chunk, format and expected code. -/
theorem SenderAgree.builtSender (h : SenderAgree s t) : t.builtSender = s.builtSender := by
  simp only [State.builtSender, h.chunkAtOff, h.chunkLen, h.snd, h.cfg]

theorem SenderAgree.sndBuild (h : SenderAgree s t) : sndBuild t = t.withSender (sndBuild s) := by
  rw [sndBuild_eq_sendSnd, sndBuild_eq_sendSnd, h.builtSender, (h.setSender _).frameInFlight]
  exact (h.setSender _).sendSnd _

theorem SenderAgree.sndTimeout (h : SenderAgree s t) : sndTimeout t = t.withSender (sndTimeout s) := by
  simp only [Machine.sndTimeout, h.snd, congrArg Params.retryLimit h.cfg]
  split
  · exact (h.setSender _).abortSender _
  · exact (h.setSender _).sndResend

theorem SenderAgree.sndEvent (h : SenderAgree s t) (e : Option RxEvent) :
    sndEvent e t = t.withSender (sndEvent e s) := by
  match e with
  | none => exact h.withSender_self
  | some (.msg m) =>
    simp only [Machine.sndEvent, sndMessage, h.snd]
    split
    · exact h.sndAdvance
    · exact h.sndResend
  | some .timeout => exact h.sndTimeout
  | some .error => exact h.abortSender _

/-- The sender's turn is decided by what it reads, and writes the sender's part of the state only. -/
theorem SenderAgree.senderStep (h : SenderAgree s t) : senderStep t = t.withSender (senderStep s) := by
  have idle : t.withSender s = t := h.withSender_self.symm
  cases hst : s.snd.state with
  | off => rw [senderStep_off hst, senderStep_off (h.snd ▸ hst), idle]
  | done => rw [senderStep_done hst, senderStep_done (h.snd ▸ hst), idle]
  | aborted => rw [senderStep_aborted hst, senderStep_aborted (h.snd ▸ hst), idle]
  | idle =>
    rcases lt_trichotomy s.snd.off.toNat s.snd.plen.toNat with hlt | heq | hgt
    · rw [senderStep_build hst hlt, senderStep_build (h.snd ▸ hst) (h.snd ▸ hlt), h.sndBuild]
    · have heq := BitVec.eq_of_toNat_eq heq
      rw [senderStep_finish hst heq, senderStep_finish (h.snd ▸ hst) (h.snd ▸ heq), h.sndFinish]
    · rw [senderStep_past hst hgt, senderStep_past (h.snd ▸ hst) (h.snd ▸ hgt), idle]
  | awaitingAck =>
    cases hx : s.sndRx with
    | nil => rw [senderStep_wait hst hx, senderStep_wait (h.snd ▸ hst) (h.sndRx ▸ hx), idle]
    | cons x more =>
      rw [senderStep_read hst hx, senderStep_read (h.snd ▸ hst) (h.sndRx ▸ hx)]
      exact (h.read more).sndEvent _

/-- The sender's turn leaves every other part of the state alone. -/
theorem senderStep_eq_withSender (s : State) : senderStep s = s.withSender (senderStep s) :=
  (SenderAgree.refl s).senderStep

end SenderTurn

/-! ### The receiver -/

/-- `t` with the receiver, its inbound port, its trace and DLV taken from `u`. -/
def State.withReceiver (t u : State) : State :=
  { t with rcv := u.rcv, rcvRx := u.rcvRx, rcvTx := u.rcvTx, dlv := u.dlv }

/-- Two states agree on all that the receiver's turn reads (R46). -/
structure ReceiverAgree (s t : State) : Prop where
  cfg : t.cfg = s.cfg
  rcv : t.rcv = s.rcv
  rcvRx : t.rcvRx = s.rcvRx
  rcvTx : t.rcvTx = s.rcvTx
  dlv : t.dlv = s.dlv

section ReceiverTurn

variable {s t : State}

theorem ReceiverAgree.refl (s : State) : ReceiverAgree s s := ⟨rfl, rfl, rfl, rfl, rfl⟩

theorem ReceiverAgree.withReceiver_self (h : ReceiverAgree s t) : t = t.withReceiver s := by
  simp only [State.withReceiver, ← h.rcv, ← h.rcvRx, ← h.rcvTx, ← h.dlv]

theorem ReceiverAgree.read (h : ReceiverAgree s t) (more : List RxSignals) :
    ReceiverAgree { s with rcvRx := more } { t with rcvRx := more } :=
  ⟨h.cfg, h.rcv, rfl, h.rcvTx, h.dlv⟩

theorem ReceiverAgree.setReceiver (h : ReceiverAgree s t) (e : Receiver) :
    ReceiverAgree { s with rcv := e } { t with rcv := e } :=
  ⟨h.cfg, rfl, h.rcvRx, h.rcvTx, h.dlv⟩

theorem ReceiverAgree.rcvBegin (h : ReceiverAgree s t) : ReceiverAgree (rcvBegin s) (rcvBegin t) := by
  unfold Machine.rcvBegin
  rw [h.rcv]
  exact h.setReceiver _

theorem ReceiverAgree.sendRcv (h : ReceiverAgree s t) (m : ByteString) :
    t.sendRcv m = t.withReceiver (s.sendRcv m) := by
  simp only [State.sendRcv, State.withReceiver, ← h.rcv, ← h.rcvRx, ← h.rcvTx, ← h.dlv]

theorem ReceiverAgree.abortReceiver (h : ReceiverAgree s t) (c : AbortCause) :
    abortReceiver c t = t.withReceiver (abortReceiver c s) := by
  simp only [Machine.abortReceiver, State.withReceiver, ← h.rcv, ← h.rcvRx, ← h.rcvTx, ← h.dlv]

theorem ReceiverAgree.rcvDone (h : ReceiverAgree s t) : rcvDone t = t.withReceiver (rcvDone s) := by
  simp only [Machine.rcvDone, State.withReceiver, ← h.rcv, ← h.rcvRx, ← h.rcvTx, ← h.dlv]

theorem ReceiverAgree.rcvReack (h : ReceiverAgree s t) (c : Byte) :
    rcvReack c t = t.withReceiver (rcvReack c s) := by
  simp only [Machine.rcvReack, State.sendRcv, State.withReceiver, ← h.rcv, ← h.rcvRx, ← h.rcvTx, ← h.dlv]

theorem ReceiverAgree.rcvAccept (h : ReceiverAgree s t) (p : ByteString) :
    rcvAccept p t = t.withReceiver (rcvAccept p s) := by
  simp only [Machine.rcvAccept, h.rcv]
  split <;>
    simp only [State.sendRcv, State.deliver, State.withReceiver, ← h.rcv, ← h.rcvRx, ← h.rcvTx, ← h.dlv]

theorem ReceiverAgree.rcvTimeout (h : ReceiverAgree s t) :
    rcvTimeout t = t.withReceiver (rcvTimeout s) := by
  simp only [Machine.rcvTimeout, h.rcv, h.cfg]
  split <;>
    simp only [State.sendRcv, Machine.abortReceiver, State.withReceiver, ← h.rcv, ← h.rcvRx, ← h.rcvTx,
      ← h.dlv]

/-- A message makes both receivers take the same row of R134. -/
theorem ReceiverAgree.rcvMessage (h : ReceiverAgree s t) (m : ByteString) :
    rcvMessage m t = t.withReceiver (rcvMessage m s) := by
  have mismatch : rcvMismatch t = t.withReceiver (rcvMismatch s) := h.sendRcv _
  unfold Machine.rcvMessage
  rw [h.cfg, h.rcv]
  split
  · exact h.rcvDone
  split
  · exact mismatch
  split
  · exact mismatch
  split
  · exact mismatch
  split
  · split
    · exact h.rcvAccept _
    · exact h.sendRcv _
  split
  · exact h.rcvReack _
  · exact mismatch

theorem ReceiverAgree.rcvEvent (h : ReceiverAgree s t) (e : Option RxEvent) :
    rcvEvent e t = t.withReceiver (rcvEvent e s) := by
  match e with
  | none => exact h.withReceiver_self
  | some (.msg m) => exact h.rcvBegin.rcvMessage m
  | some .timeout => exact h.rcvBegin.rcvTimeout
  | some .error => exact h.rcvBegin.abortReceiver _

/-- The receiver's turn is decided by what it reads, and writes the receiver's part of the state only. -/
theorem ReceiverAgree.receiverStep (h : ReceiverAgree s t) :
    receiverStep t = t.withReceiver (receiverStep s) := by
  by_cases hst : s.rcv.state = .listening
  · cases hx : s.rcvRx with
    | nil =>
      rw [receiverStep_wait hst hx, receiverStep_wait (h.rcv ▸ hst) (h.rcvRx ▸ hx)]
      exact h.withReceiver_self
    | cons x more =>
      rw [receiverStep_read hst hx, receiverStep_read (h.rcv ▸ hst) (h.rcvRx ▸ hx)]
      exact (h.read more).rcvEvent _
  · rw [receiverStep_stopped hst, receiverStep_stopped (h.rcv ▸ hst)]
    exact h.withReceiver_self

/-- The receiver's turn leaves every other part of the state alone. -/
theorem receiverStep_eq_withReceiver (s : State) : receiverStep s = s.withReceiver (receiverStep s) :=
  (ReceiverAgree.refl s).receiverStep

end ReceiverTurn

end Sys2Proof.Machine

namespace Sys2Proof.Proofs

open Sys2Proof Sys2Proof.Machine

/-- Settles O51: the frame is the case of a state and itself, the non-interference the case of two. -/
theorem enginesShareNoState : Obligations.EnginesShareNoState := by
  refine ⟨fun s => ⟨senderStep_eq_withSender s, receiverStep_eq_withReceiver s⟩, ?sender, ?receiver⟩
  case sender =>
    intro s t hcfg hsnd hrx htx hpmem hdraw
    have agree : SenderAgree s t := ⟨hcfg, hsnd, hrx, htx, hpmem, hdraw⟩
    rw [agree.senderStep]
    exact ⟨rfl, rfl, rfl⟩
  case receiver =>
    intro s t hcfg hrcv hrx htx hdlv
    have agree : ReceiverAgree s t := ⟨hcfg, hrcv, hrx, htx, hdlv⟩
    rw [agree.receiverStep]
    exact ⟨rfl, rfl, rfl, rfl⟩

end Sys2Proof.Proofs
end

section
/-!
PROOFS. The invariant of the whole block: which part of the state each conjunct of `Inv` speaks of, how
each agent's action keeps it, and the step.
-/

namespace Sys2Proof.Machine

open Sys2Proof

/-! ### Numbers -/

theorem ceilDiv_zero {c : Nat} (hc : 1 ≤ c) : ceilDiv 0 c = 0 := Nat.div_eq_of_lt (by omega)

/-- From a chunk boundary, a further chunk (perhaps short, not empty) counts one more. -/
theorem ceilDiv_add_chunk {a n c : Nat} (ha : a % c = 0) (hn : 1 ≤ n) (hnc : n ≤ c) :
    ceilDiv (a + n) c = ceilDiv a c + 1 := by
  have hc : 0 < c := by omega
  obtain ⟨k, rfl⟩ := Nat.dvd_of_mod_eq_zero ha
  have upper : c * k + n + c - 1 = (n - 1) + c * (k + 1) := by rw [Nat.mul_succ]; omega
  have lower : c * k + c - 1 = (c - 1) + c * k := by omega
  unfold ceilDiv
  rw [upper, lower, Nat.add_mul_div_left _ _ hc, Nat.add_mul_div_left _ _ hc,
    Nat.div_eq_of_lt (by omega), Nat.div_eq_of_lt (by omega)]
  omega

theorem seqInc_seqCode (v : Nat) : seqInc (seqCode v) = seqCode (v + 1) := by
  simp [seqInc, seqCode, BitVec.ofNat_add]

/-- A counter below its 8-bit limit does not wrap when it counts (log 13). -/
theorem count_succ_toNat {b : Byte} {limit : Nat} (h : b.toNat < limit) (hl : limit ≤ 255) :
    (b + 1).toNat = b.toNat + 1 := by
  bv_omega

theorem Params.chunkSize_pos {p : Params} (h : p.legal = true) : 1 ≤ p.chunkSize := by
  rw [Params.legal_iff] at h
  omega

theorem Params.retryLimit_bounds {p : Params} (h : p.legal = true) :
    0 < p.retryLimit ∧ p.retryLimit ≤ 255 := by
  rw [Params.legal_iff] at h
  omega

theorem Params.timeoutLimit_bounds {p : Params} (h : p.legal = true) :
    0 < p.timeoutLimit ∧ p.timeoutLimit ≤ 255 := by
  rw [Params.legal_iff] at h
  omega

/-! ### Storage and outputs -/

theorem State.mem_writeBytes (s : State) (sp sp' : Space) (x : Nat) (v : ByteString) :
    (s.writeBytes sp x v).mem sp' =
      if sp' = sp then Memory.writeBytes (s.mem sp) x v else s.mem sp' := by
  cases sp <;> cases sp' <;> rfl

@[simp] theorem State.writeBytes_cfg (s : State) (sp : Space) (x : Nat) (v : ByteString) :
    (s.writeBytes sp x v).cfg = s.cfg := by cases sp <;> rfl

section Parts

variable {s t : State}

/-- Storage is judged by the parameters and the written bytes. -/
theorem State.storageOk_congr (h : s.storageOk) (hcfg : t.cfg = s.cfg)
    (hmem : ∀ sp, t.mem sp = s.mem sp) : t.storageOk := by
  intro sp
  rw [hmem sp, hcfg]
  exact h sp

/-- A write inside a storage keeps every storage canonical and inside its size. -/
theorem State.storageOk_writeBytes {sp : Space} {x : Nat} {v : ByteString} (h : s.storageOk)
    (hx : x + v.length ≤ Params.size s.cfg sp) : (s.writeBytes sp x v).storageOk := by
  intro sp'
  rw [State.mem_writeBytes, State.writeBytes_cfg]
  obtain ⟨hwf, hin⟩ := h sp'
  split
  · next heq =>
    subst heq
    exact ⟨Memory.wf_writeBytes x v hwf, Memory.within_writeBytes v hin hx⟩
  · exact ⟨hwf, hin⟩

theorem State.outputOk_congr (h : s.outputOk) (hcfg : t.cfg = s.cfg) (hlen : t.outLen = s.outLen)
    (hdgst : t.dgst = s.dgst) : t.outputOk := by
  unfold State.outputOk
  rw [hcfg, hlen, hdgst]
  exact h

/-! ### The sender's part -/

theorem State.senderOk_off (h : s.snd.state = .off) :
    s.senderOk ↔ s.snd.expectedAck = 0x01 ∧ s.snd.retryCount = 0 ∧ s.snd.resendPending = false ∧
      s.snd.off = 0 ∧ s.snd.plen = 0 ∧ s.snd.flen = 0 ∧ s.snd.cause = .noAbort := by
  simp only [State.senderOk, h]

theorem State.senderOk_idle (h : s.snd.state = .idle) :
    s.senderOk ↔ s.sessionOk ∧ s.snd.retryCount = 0 ∧ s.snd.resendPending = false := by
  simp only [State.senderOk, h]

theorem State.senderOk_awaitingAck (h : s.snd.state = .awaitingAck) :
    s.senderOk ↔ s.sessionOk ∧ s.flightOk := by
  simp only [State.senderOk, h]

theorem State.senderOk_done (h : s.snd.state = .done) :
    s.senderOk ↔ s.snd.off = s.snd.plen ∧ s.snd.cause = .noAbort ∧ s.snd.retryCount = 0 := by
  simp only [State.senderOk, h]

theorem State.senderOk_aborted (h : s.snd.state = .aborted) :
    s.senderOk ↔ s.snd.off.toNat < s.snd.plen.toNat ∧
      ((s.snd.cause = .retryExhausted ∧ s.snd.retryCount.toNat = s.cfg.retryLimit) ∨
        (s.snd.cause = .transportError ∧ s.snd.retryCount.toNat < s.cfg.retryLimit)) := by
  simp only [State.senderOk, h]

theorem State.sessionOk_congr (h : s.sessionOk) (hcfg : t.cfg = s.cfg) (hsnd : t.snd = s.snd) :
    t.sessionOk := by
  unfold State.sessionOk
  rw [hcfg, hsnd]
  exact h

theorem State.flightOk_off_lt (h : s.flightOk) : s.snd.off.toNat < s.snd.plen.toNat := by
  obtain ⟨hlt, -, -, -⟩ := h
  exact hlt

theorem State.flightOk_count_lt (h : s.flightOk) : s.snd.retryCount.toNat < s.cfg.retryLimit := by
  obtain ⟨-, -, -, hcount⟩ := h
  exact hcount

/-- The frame in flight stays the encoding of its chunk while the chunk, the kept frame and the code
stay; only the count of its timeouts may move. -/
theorem State.flightOk_congr (h : s.flightOk) (hcfg : t.cfg = s.cfg) (hoff : t.snd.off = s.snd.off)
    (hplen : t.snd.plen = s.snd.plen) (hflen : t.snd.flen = s.snd.flen)
    (hframe : t.snd.frame = s.snd.frame) (hack : t.snd.expectedAck = s.snd.expectedAck)
    (hpmem : t.pmem = s.pmem) (hdraw : t.draw = s.draw)
    (hcount : t.snd.retryCount.toNat < s.cfg.retryLimit) : t.flightOk := by
  obtain ⟨hlt, hlen, hkept, -⟩ := h
  have hchunk : t.chunkLen = s.chunkLen := by simp only [State.chunkLen, hcfg, hoff, hplen]
  refine ⟨by rw [hoff, hplen]; exact hlt, by rw [hflen, hchunk]; exact hlen, ?_, by rw [hcfg]; exact hcount⟩
  rw [State.frameInFlight_congr hframe hflen hdraw, State.chunkAtOff_congr hcfg hoff hplen hpmem hdraw,
    hcfg, hack]
  exact hkept

/-- The sender is judged by its own state, the parameters and, for the frame in flight, PMEM. -/
theorem State.senderOk_congr (h : s.senderOk) (hcfg : t.cfg = s.cfg) (hsnd : t.snd = s.snd)
    (hpmem : t.pmem = s.pmem) (hdraw : t.draw = s.draw) : t.senderOk := by
  cases hst : s.snd.state with
  | awaitingAck =>
    obtain ⟨hsession, hflight⟩ := (State.senderOk_awaitingAck hst).1 h
    refine (State.senderOk_awaitingAck (hsnd ▸ hst)).2 ⟨State.sessionOk_congr hsession hcfg hsnd, ?_⟩
    exact State.flightOk_congr hflight hcfg (by rw [hsnd]) (by rw [hsnd]) (by rw [hsnd]) (by rw [hsnd])
      (by rw [hsnd]) hpmem hdraw (by rw [hsnd]; exact State.flightOk_count_lt hflight)
  | idle =>
    obtain ⟨hsession, hcount, hresend⟩ := (State.senderOk_idle hst).1 h
    exact (State.senderOk_idle (hsnd ▸ hst)).2
      ⟨State.sessionOk_congr hsession hcfg hsnd, hsnd ▸ hcount, hsnd ▸ hresend⟩
  | off => exact (State.senderOk_off (hsnd ▸ hst)).2 (hsnd ▸ (State.senderOk_off hst).1 h)
  | done => exact (State.senderOk_done (hsnd ▸ hst)).2 (hsnd ▸ (State.senderOk_done hst).1 h)
  | aborted =>
    exact (State.senderOk_aborted (hsnd ▸ hst)).2 (hsnd ▸ hcfg ▸ (State.senderOk_aborted hst).1 h)

/-- Outside a session nothing is in flight, so PMEM does not matter. -/
theorem State.senderOk_congr_inactive (h : s.senderOk) (hact : s.senderActive = false)
    (hcfg : t.cfg = s.cfg) (hsnd : t.snd = s.snd) : t.senderOk := by
  cases hst : s.snd.state with
  | idle => simp [State.senderActive, hst] at hact
  | awaitingAck => simp [State.senderActive, hst] at hact
  | off => exact (State.senderOk_off (hsnd ▸ hst)).2 (hsnd ▸ (State.senderOk_off hst).1 h)
  | done => exact (State.senderOk_done (hsnd ▸ hst)).2 (hsnd ▸ (State.senderOk_done hst).1 h)
  | aborted =>
    exact (State.senderOk_aborted (hsnd ▸ hst)).2 (hsnd ▸ hcfg ▸ (State.senderOk_aborted hst).1 h)

/-! ### The receiver's part -/

theorem State.receiverOk_listening (h : s.rcv.state = .listening) :
    s.receiverOk ↔ s.rcv.timeoutCount.toNat < s.cfg.timeoutLimit ∧ s.rcv.cause = .noAbort ∧
      (s.rcv.delivered = true → s.rcv.timeoutCount = 0) := by
  simp only [State.receiverOk, h]

theorem State.receiverOk_done (h : s.rcv.state = .done) :
    s.receiverOk ↔ s.rcv.timeoutCount.toNat < s.cfg.timeoutLimit ∧ s.rcv.cause = .noAbort ∧
      s.rcv.delivered = false := by
  simp only [State.receiverOk, h]

theorem State.receiverOk_aborted (h : s.rcv.state = .aborted) :
    s.receiverOk ↔ s.rcv.delivered = false ∧
      ((s.rcv.cause = .timeoutExhausted ∧ s.rcv.timeoutCount.toNat = s.cfg.timeoutLimit) ∨
        (s.rcv.cause = .transportError ∧ s.rcv.timeoutCount.toNat < s.cfg.timeoutLimit)) := by
  simp only [State.receiverOk, h]

theorem State.receiverOk_congr (h : s.receiverOk) (hcfg : t.cfg = s.cfg) (hrcv : t.rcv = s.rcv) :
    t.receiverOk := by
  unfold State.receiverOk
  rw [hcfg, hrcv]
  exact h

/-- The registers and lists that `Inv` does not speak of may change freely. -/
theorem Inv.congr (h : Inv s) (hcfg : t.cfg = s.cfg) (hmem : ∀ sp, t.mem sp = s.mem sp)
    (hlen : t.outLen = s.outLen) (hdgst : t.dgst = s.dgst) (hsnd : t.snd = s.snd) (hrcv : t.rcv = s.rcv)
    (hdraw : t.draw = s.draw) : Inv t := by
  obtain ⟨hlegal, hstore, hout, hsender, hreceiver⟩ := h
  exact ⟨hcfg ▸ hlegal, State.storageOk_congr hstore hcfg hmem, State.outputOk_congr hout hcfg hlen hdgst,
    State.senderOk_congr hsender hcfg hsnd (hmem .pmem) hdraw, State.receiverOk_congr hreceiver hcfg hrcv⟩

end Parts

/-! ### The sender's turn -/

section SenderTurn

variable {s : State}

/-- The chunk at `snd.off` is not empty, ends inside the payload, and is a full one but at the end. -/
theorem State.chunkLen_bounds (hl : s.cfg.legal = true) (hlt : s.snd.off.toNat < s.snd.plen.toNat) :
    1 ≤ s.chunkLen ∧ s.chunkLen ≤ s.cfg.chunkSize ∧ s.snd.off.toNat + s.chunkLen ≤ s.snd.plen.toNat ∧
      (s.chunkLen = s.cfg.chunkSize ∨ s.snd.off.toNat + s.chunkLen = s.snd.plen.toNat) := by
  rw [Params.legal_iff] at hl
  unfold State.chunkLen
  omega

/-- A frame fits `snd.frame` and its length fits `snd.flen`. -/
theorem State.chunkLen_add_ten_lt (hl : s.cfg.legal = true) : s.chunkLen + 10 < 2 ^ 32 := by
  rw [Params.legal_iff] at hl
  unfold State.chunkLen
  omega

/-- The frame just built is the one kept for retransmission (R39, R122): what is sent is read from it. -/
theorem sndBuild_frameInFlight (hl : s.cfg.legal = true) :
    (sndBuild s).frameInFlight = frameBytes s.cfg.digestFormat s.chunkAtOff s.snd.expectedAck := by
  have sent : s.sndTx ++ [({ s with snd := s.builtSender } : State).frameInFlight] =
      s.sndTx ++ [frameBytes s.cfg.digestFormat s.chunkAtOff s.snd.expectedAck] :=
    congrArg State.sndTx ((sndBuild_eq_sendSnd s).symm.trans (sndBuild_eq s (State.chunkLen_add_ten_lt hl)))
  simp only [List.append_cancel_left_eq, List.cons.injEq, and_true] at sent
  rw [← sent]
  exact State.frameInFlight_congr rfl rfl rfl

theorem senderOk_sndBuild (hl : s.cfg.legal = true) (hst : s.snd.state = .idle) (hok : s.senderOk)
    (hlt : s.snd.off.toNat < s.snd.plen.toNat) : (sndBuild s).senderOk := by
  obtain ⟨hsession, hcount, -⟩ := (State.senderOk_idle hst).1 hok
  refine (State.senderOk_awaitingAck (s := sndBuild s) rfl).2 ⟨hsession, hlt, ?flen, ?kept, ?count⟩
  case flen => exact toWord_toNat_of_lt (State.chunkLen_add_ten_lt hl)
  case kept =>
    have hchunk : (sndBuild s).chunkAtOff = s.chunkAtOff := State.chunkAtOff_congr rfl rfl rfl rfl rfl
    rw [sndBuild_frameInFlight hl, hchunk]
    rfl
  case count =>
    show s.snd.retryCount.toNat < s.cfg.retryLimit
    rw [hcount]
    exact (Params.retryLimit_bounds hl).1

theorem senderOk_sndFinish (hst : s.snd.state = .idle) (hok : s.senderOk) (heq : s.snd.off = s.snd.plen) :
    (sndFinish s).senderOk := by
  obtain ⟨⟨-, -, -, hcause, -⟩, hcount, -⟩ := (State.senderOk_idle hst).1 hok
  exact (State.senderOk_done rfl).2 ⟨heq, hcause, hcount⟩

/-- `snd.off` advances by the chunk just acknowledged, which the frame's length holds (R124). -/
theorem sndAdvance_off_toNat (hl : s.cfg.legal = true) (hflight : s.flightOk) :
    (s.snd.off + (s.snd.flen - 10)).toNat = s.snd.off.toNat + s.chunkLen := by
  obtain ⟨hlt, hflen, -, -⟩ := hflight
  obtain ⟨-, -, hle, -⟩ := State.chunkLen_bounds hl hlt
  bv_omega

theorem sessionOk_sndAdvance (hl : s.cfg.legal = true) (hsession : s.sessionOk) (hflight : s.flightOk) :
    (sndAdvance s).sessionOk := by
  obtain ⟨hplen, -, hboundary, hcause, hack⟩ := hsession
  have hoff := sndAdvance_off_toNat hl hflight
  obtain ⟨hpos, hle, hend, hlast⟩ := State.chunkLen_bounds hl (State.flightOk_off_lt hflight)
  have hstart : s.snd.off.toNat % s.cfg.chunkSize = 0 :=
    hboundary.resolve_right fun e => absurd (State.flightOk_off_lt hflight) (by rw [e]; exact lt_irrefl _)
  refine ⟨hplen, hoff.trans_le hend, ?boundary, hcause, ?ack⟩
  case boundary =>
    refine hlast.imp (fun hfull => ?_) fun hshort => BitVec.eq_of_toNat_eq (hoff.trans hshort)
    show (s.snd.off + (s.snd.flen - 10)).toNat % s.cfg.chunkSize = 0
    rw [hoff, hfull, Nat.add_mod_right, hstart]
  case ack =>
    show seqInc s.snd.expectedAck =
      seqCode (ceilDiv (s.snd.off + (s.snd.flen - 10)).toNat s.cfg.chunkSize + 1)
    rw [hoff, hack, seqInc_seqCode, ceilDiv_add_chunk hstart hpos hle]

theorem senderOk_sndResend (hst : s.snd.state = .awaitingAck) (hsession : s.sessionOk)
    (hflight : s.flightOk) : (sndResend s).senderOk := by
  have hcount := State.flightOk_count_lt hflight
  exact (State.senderOk_awaitingAck (s := sndResend s) hst).2
    ⟨hsession, State.flightOk_congr hflight rfl rfl rfl rfl rfl rfl rfl rfl hcount⟩

/-- A timeout counts; at the limit the sender aborts, below it the frame is sent again (R126). -/
theorem senderOk_sndTimeout (hl : s.cfg.legal = true) (hst : s.snd.state = .awaitingAck)
    (hsession : s.sessionOk) (hflight : s.flightOk) : (sndTimeout s).senderOk := by
  have hlt := State.flightOk_off_lt hflight
  have hcount := State.flightOk_count_lt hflight
  have hsucc := count_succ_toNat hcount (Params.retryLimit_bounds hl).2
  unfold sndTimeout
  dsimp only
  split
  · next hlimit => exact (State.senderOk_aborted rfl).2 ⟨hlt, .inl ⟨rfl, hlimit⟩⟩
  · next hlimit =>
    have counted : ({ s with snd := { s.snd with retryCount := s.snd.retryCount + 1 } } : State).flightOk :=
      State.flightOk_congr hflight rfl rfl rfl rfl rfl rfl rfl rfl
        (show (s.snd.retryCount + 1).toNat < s.cfg.retryLimit by omega)
    exact senderOk_sndResend hst hsession counted

theorem senderOk_sndEvent (hl : s.cfg.legal = true) (hst : s.snd.state = .awaitingAck) (hok : s.senderOk)
    (e : Option RxEvent) : (sndEvent e s).senderOk := by
  obtain ⟨hsession, hflight⟩ := (State.senderOk_awaitingAck hst).1 hok
  match e with
  | none => exact hok
  | some (.msg m) =>
    show (sndMessage m s).senderOk
    unfold sndMessage
    split
    · exact (State.senderOk_idle rfl).2 ⟨sessionOk_sndAdvance hl hsession hflight, rfl, rfl⟩
    · exact senderOk_sndResend hst hsession hflight
  | some .timeout => exact senderOk_sndTimeout hl hst hsession hflight
  | some .error =>
    have hlt := State.flightOk_off_lt hflight
    have hcount := State.flightOk_count_lt hflight
    exact (State.senderOk_aborted rfl).2 ⟨hlt, .inr ⟨rfl, hcount⟩⟩

/-- Every turn keeps the sender's part of the invariant, row by row of R121. -/
theorem senderOk_senderStep (hl : s.cfg.legal = true) (hok : s.senderOk) : (senderStep s).senderOk := by
  cases hst : s.snd.state with
  | off => rwa [senderStep_off hst]
  | done => rwa [senderStep_done hst]
  | aborted => rwa [senderStep_aborted hst]
  | idle =>
    rcases lt_trichotomy s.snd.off.toNat s.snd.plen.toNat with hlt | heq | hgt
    · rw [senderStep_build hst hlt]
      exact senderOk_sndBuild hl hst hok hlt
    · have heq := BitVec.eq_of_toNat_eq heq
      rw [senderStep_finish hst heq]
      exact senderOk_sndFinish hst hok heq
    · rwa [senderStep_past hst hgt]
  | awaitingAck =>
    cases hx : s.sndRx with
    | nil => rwa [senderStep_wait hst hx]
    | cons x more =>
      rw [senderStep_read hst hx]
      exact senderOk_sndEvent (s := { s with sndRx := more }) hl hst (State.senderOk_congr hok rfl rfl rfl rfl) _

/-- Only building writes `snd.frame`. -/
theorem sndEvent_frame (e : Option RxEvent) : (sndEvent e s).snd.frame = s.snd.frame := by
  match e with
  | none => rfl
  | some (.msg m) =>
    show (sndMessage m s).snd.frame = _
    unfold sndMessage
    split <;> rfl
  | some .timeout =>
    show (sndTimeout s).snd.frame = _
    unfold sndTimeout
    dsimp only
    split <;> rfl
  | some .error => rfl

/-- A turn leaves the kept frame, or replaces it from its first byte on by a frame that fits. -/
theorem senderStep_frame_cases (s : State) :
    (senderStep s).snd.frame = s.snd.frame ∨
      ∃ f : ByteString, f.length ≤ Params.size s.cfg .frame ∧
        (senderStep s).snd.frame = Memory.writeBytes s.snd.frame 0 f := by
  cases hst : s.snd.state with
  | off => exact .inl (by rw [senderStep_off hst])
  | done => exact .inl (by rw [senderStep_done hst])
  | aborted => exact .inl (by rw [senderStep_aborted hst])
  | idle =>
    rcases lt_trichotomy s.snd.off.toNat s.snd.plen.toNat with hlt | heq | hgt
    · refine .inr ⟨frameBytes s.cfg.digestFormat s.chunkAtOff s.snd.expectedAck, ?_, ?_⟩
      · have hchunk : s.chunkLen ≤ s.cfg.chunkSize := min_le_left _ _
        simpa [Params.size, State.chunkAtOff] using hchunk
      · rw [senderStep_build hst hlt]
        rfl
    · exact .inl (by rw [senderStep_finish hst (BitVec.eq_of_toNat_eq heq)]; rfl)
    · exact .inl (by rw [senderStep_past hst hgt])
  | awaitingAck =>
    left
    cases hx : s.sndRx with
    | nil => rw [senderStep_wait hst hx]
    | cons x more => rw [senderStep_read hst hx, sndEvent_frame]

@[simp] theorem senderStep_cfg (s : State) : (senderStep s).cfg = s.cfg := by
  rw [senderStep_eq_withSender]; rfl

theorem senderStep_mem {sp : Space} (hsp : sp ≠ .frame) : (senderStep s).mem sp = s.mem sp := by
  rw [senderStep_eq_withSender]
  cases sp with
  | frame => exact absurd rfl hsp
  | _ => rfl

/-- The sender's turn keeps every storage canonical and inside its size. -/
theorem storageOk_senderStep (hstore : s.storageOk) : (senderStep s).storageOk := by
  intro sp
  rw [senderStep_cfg]
  by_cases hsp : sp = .frame
  · subst hsp
    obtain ⟨hwf, hin⟩ := hstore .frame
    rw [State.mem_frame]
    rcases senderStep_frame_cases s with hsame | ⟨f, hfit, hnew⟩
    · rw [hsame]
      exact ⟨hwf, hin⟩
    · rw [hnew]
      exact ⟨Memory.wf_writeBytes 0 f hwf, Memory.within_writeBytes f hin (by rwa [Nat.zero_add])⟩
  · rw [senderStep_mem hsp]
    exact hstore sp

/-- The sender's turn keeps the invariant: all but its own part and the kept frame it leaves alone. -/
theorem Inv.senderStep (h : Inv s) : Inv (senderStep s) := by
  obtain ⟨hlegal, hstore, hout, hsender, hreceiver⟩ := h
  refine ⟨(senderStep_cfg s).symm ▸ hlegal, storageOk_senderStep hstore, ?output,
    senderOk_senderStep hlegal hsender, ?receiver⟩
  case output =>
    refine State.outputOk_congr hout (senderStep_cfg s) ?_ ?_ <;> rw [senderStep_eq_withSender] <;> rfl
  case receiver =>
    refine State.receiverOk_congr hreceiver (senderStep_cfg s) ?_
    rw [senderStep_eq_withSender]
    rfl

end SenderTurn

/-! ### The receiver's turn -/

section ReceiverTurn

variable {s : State}

/-- A receiver that has begun to answer what it read (R135): listening, below its limit, nothing
delivered yet. -/
structure Begun (s : State) : Prop where
  state : s.rcv.state = .listening
  count : s.rcv.timeoutCount.toNat < s.cfg.timeoutLimit
  cause : s.rcv.cause = .noAbort
  delivered : s.rcv.delivered = false

theorem begun_rcvBegin (hst : s.rcv.state = .listening) (hok : s.receiverOk) : Begun (rcvBegin s) := by
  obtain ⟨hcount, hcause, -⟩ := (State.receiverOk_listening hst).1 hok
  exact ⟨hst, hcount, hcause, rfl⟩

/-- An answer that touches no field of the receiver. -/
theorem Begun.receiverOk (h : Begun s) : s.receiverOk :=
  (State.receiverOk_listening h.state).2 ⟨h.count, h.cause, fun e => by simp [h.delivered] at e⟩

theorem rcvAccept_rcv (p : ByteString) (s : State) :
    (rcvAccept p s).cfg = s.cfg ∧ (rcvAccept p s).rcv.state = s.rcv.state ∧
      (rcvAccept p s).rcv.timeoutCount = 0 ∧ (rcvAccept p s).rcv.cause = s.rcv.cause := by
  unfold rcvAccept
  dsimp only
  split <;> exact ⟨rfl, rfl, rfl, rfl⟩

theorem Begun.receiverOk_rcvMessage (h : Begun s) (hl : s.cfg.legal = true) (m : ByteString) :
    (rcvMessage m s).receiverOk := by
  have hlimit : (0 : Byte).toNat < s.cfg.timeoutLimit := (Params.timeoutLimit_bounds hl).1
  have unchanged : ∀ reply, (s.sendRcv reply).receiverOk := fun _ =>
    State.receiverOk_congr h.receiverOk rfl rfl
  rcases rcvMessage_cases m s with ⟨-, he⟩ | he | ⟨p, seq, -, -, ⟨-, -, he⟩ | ⟨-, -, he⟩ | ⟨-, -, he⟩⟩
  · rw [he]
    exact (State.receiverOk_done rfl).2 ⟨h.count, h.cause, h.delivered⟩
  · rw [he]
    exact unchanged _
  · obtain ⟨hcfg, hstate, hcount, hcause⟩ := rcvAccept_rcv p s
    rw [he]
    refine (State.receiverOk_listening (hstate.trans h.state)).2 ⟨?_, hcause.trans h.cause, fun _ => hcount⟩
    rwa [hcount, hcfg]
  · rw [he]
    exact unchanged _
  · rw [he]
    exact (State.receiverOk_listening (s := rcvReack seq s) h.state).2 ⟨hlimit, h.cause, fun _ => rfl⟩

/-- A timeout counts; at the limit the receiver aborts (R142). -/
theorem Begun.receiverOk_rcvTimeout (h : Begun s) (hl : s.cfg.legal = true) :
    (rcvTimeout s).receiverOk := by
  have hsucc := count_succ_toNat h.count (Params.timeoutLimit_bounds hl).2
  have hcount := h.count
  unfold rcvTimeout
  dsimp only
  split
  · next hlimit => exact (State.receiverOk_aborted rfl).2 ⟨h.delivered, .inl ⟨rfl, hlimit⟩⟩
  · next hlimit =>
    have counted :
        Begun ({ s with rcv := { s.rcv with timeoutCount := s.rcv.timeoutCount + 1 } } : State) :=
      ⟨h.state, show (s.rcv.timeoutCount + 1).toNat < s.cfg.timeoutLimit by omega, h.cause, h.delivered⟩
    exact State.receiverOk_congr counted.receiverOk rfl rfl

/-- Every turn keeps the receiver's part of the invariant (R134). -/
theorem receiverOk_receiverStep (hl : s.cfg.legal = true) (hok : s.receiverOk) :
    (receiverStep s).receiverOk := by
  by_cases hst : s.rcv.state = .listening
  · cases hx : s.rcvRx with
    | nil => rwa [receiverStep_wait hst hx]
    | cons x more =>
      rw [receiverStep_read hst hx]
      have begun : Begun (rcvBegin { s with rcvRx := more }) := begun_rcvBegin hst hok
      match x.event with
      | none => exact State.receiverOk_congr hok rfl rfl
      | some (.msg m) => exact begun.receiverOk_rcvMessage hl m
      | some .timeout => exact begun.receiverOk_rcvTimeout hl
      | some .error => exact (State.receiverOk_aborted rfl).2 ⟨rfl, .inr ⟨rfl, begun.count⟩⟩
  · rwa [receiverStep_stopped hst]

/-- The receiver's turn keeps the invariant: it leaves all but its own part alone. -/
theorem Inv.receiverStep (h : Inv s) : Inv (receiverStep s) := by
  obtain ⟨hlegal, hstore, hout, hsender, hreceiver⟩ := h
  have turned := receiverOk_receiverStep hlegal hreceiver
  rw [receiverStep_eq_withReceiver] at turned ⊢
  exact ⟨hlegal, State.storageOk_congr hstore rfl fun _ => rfl, hout,
    State.senderOk_congr hsender rfl rfl rfl rfl, turned⟩

end ReceiverTurn

/-! ### The host and reset -/

section Host

variable {s t : State}

/-- A session that starts with a payload inside PMEM starts good (R120). -/
theorem senderOk_started (hl : s.cfg.legal = true) (hst : s.snd.state = .idle)
    (hplen : s.snd.plen.toNat ≤ s.cfg.pmemSize) (hoff : s.snd.off = 0) (hack : s.snd.expectedAck = 0x01)
    (hcount : s.snd.retryCount = 0) (hresend : s.snd.resendPending = false)
    (hcause : s.snd.cause = .noAbort) : s.senderOk := by
  have hzero : s.snd.off.toNat = 0 := congrArg BitVec.toNat hoff
  refine (State.senderOk_idle hst).2 ⟨⟨hplen, by omega, .inl (by rw [hzero, Nat.zero_mod]), hcause, ?_⟩,
    hcount, hresend⟩
  rw [hack, hzero, ceilDiv_zero (Params.chunkSize_pos hl)]
  rfl

/-- A command's output keeps the invariant: it fits OBUF, and a digest has nine bytes. -/
theorem Inv.output (h : Inv s) {g v : ByteString} {r : Word} (hg : g.length = 9)
    (hv : v.length ≤ s.cfg.obufSize) :
    Inv { s with
      dgst := g, obuf := Memory.writeBytes s.obuf 0 v, outLen := toWord v.length, result := r,
      err := .eNone } := by
  obtain ⟨hlegal, hstore, -, hsender, hreceiver⟩ := h
  refine ⟨hlegal, ?_, ⟨?_, hg⟩, State.senderOk_congr hsender rfl rfl rfl rfl, hreceiver⟩
  · have written : (s.writeBytes .obuf 0 v).storageOk :=
      State.storageOk_writeBytes hstore (by rwa [Nat.zero_add])
    exact State.storageOk_congr written rfl fun sp => by cases sp <;> rfl
  · exact (toWord_toNat _ ▸ Nat.mod_le _ _).trans hv

/-- Every command keeps the invariant. -/
theorem Inv.exec {i : Instr} (h : Inv s) (he : exec i s = .next t) : Inv t := by
  have hdgst : ∀ {g : ByteString}, g = s.dgst ∨ g.length = 9 → g.length = 9 := by
    rintro g (rfl | hg)
    · obtain ⟨-, -, ⟨-, hnine⟩, -, -⟩ := h
      exact hnine
    · exact hg
  rcases exec_cases he with ⟨e, rfl⟩ | ⟨r, g, hg, rfl⟩ | ⟨r, g, v, hg, hv, rfl⟩ |
    ⟨-, -, hplen, r, rfl⟩ | ⟨-, -, rfl⟩
  · exact h.congr rfl (fun _ => rfl) rfl rfl rfl rfl rfl
  · obtain ⟨hlegal, hstore, ⟨hlen, -⟩, hsender, hreceiver⟩ := h
    exact ⟨hlegal, hstore, ⟨hlen, hdgst hg⟩, State.senderOk_congr hsender rfl rfl rfl rfl, hreceiver⟩
  · exact h.output (hdgst hg) (hv h.1)
  · obtain ⟨hlegal, hstore, hout, -, hreceiver⟩ := h
    exact ⟨hlegal, State.storageOk_congr hstore rfl fun sp => by cases sp <;> rfl, hout,
      senderOk_started hlegal rfl hplen rfl rfl rfl rfl rfl, hreceiver⟩
  · obtain ⟨hlegal, hstore, hout, hsender, -⟩ := h
    exact ⟨hlegal, hstore, hout, State.senderOk_congr hsender rfl rfl rfl rfl,
      (State.receiverOk_listening rfl).2 ⟨(Params.timeoutLimit_bounds hlegal).1, rfl, fun _ => rfl⟩⟩

/-- Every host access that is not refused keeps the invariant. PMEM is written outside a session only,
so a frame in flight keeps its chunk (R55, R56). -/
theorem Inv.hostAccess {acc : HostAccess} (h : Inv s) (he : hostAccess acc s = .next t) : Inv t := by
  rcases hostAccess_cases he with rfl | ⟨v, rfl⟩ | ⟨v, rfl⟩ | ⟨v, rfl⟩ | ⟨-, v, rfl⟩ | ⟨e, rfl⟩ |
    ⟨w, i, -, -, hexec⟩ | ⟨a, v, ha, rfl⟩ | ⟨hact, a, v, ha, rfl⟩
  · exact h
  iterate 5 exact h.congr rfl (fun _ => rfl) rfl rfl rfl rfl rfl
  · exact h.exec hexec
  · obtain ⟨hlegal, hstore, hout, hsender, hreceiver⟩ := h
    exact ⟨hlegal, State.storageOk_writeBytes hstore ha, hout,
      State.senderOk_congr hsender rfl rfl rfl rfl, hreceiver⟩
  · obtain ⟨hlegal, hstore, hout, hsender, hreceiver⟩ := h
    exact ⟨hlegal, State.storageOk_writeBytes hstore ha, hout,
      State.senderOk_congr_inactive hsender hact rfl rfl, hreceiver⟩

/-- Reset gives a good state for every legal configuration and draw (R169). -/
theorem inv_resetWith {cfg : Params} (hl : cfg.legal = true) (d : Nat) : Inv (State.resetWith cfg d) := by
  refine ⟨hl, fun sp => ?_, ⟨Nat.zero_le _, rfl⟩, ?_, ?_⟩
  · cases sp <;> exact ⟨rfl, rfl⟩
  · exact ⟨rfl, rfl, rfl, rfl, rfl, rfl, rfl⟩
  · exact ⟨rfl, rfl, rfl, rfl, rfl⟩

end Host

end Sys2Proof.Machine

namespace Sys2Proof.Proofs

open Sys2Proof Sys2Proof.Machine

/-- Settles O49, by the action the step performs. -/
theorem stepKeepsInvariant : Obligations.StepKeepsInvariant := by
  intro s t h hstep
  obtain ⟨hlegal, ⟨-, rfl⟩ | ⟨rest, hact⟩⟩ := step_cases hstep
  · exact h
  have htaken : Inv { s with sched := rest } := h.congr rfl (fun _ => rfl) rfl rfl rfl rfl rfl
  rcases hact with ⟨acc, -, hacc⟩ | ⟨-, rfl⟩ | ⟨-, rfl⟩ | ⟨-, rfl⟩
  · exact htaken.hostAccess hacc
  · exact htaken.senderStep
  · exact htaken.receiverStep
  · exact (inv_resetWith hlegal (s.draw + 1)).congr rfl (fun _ => rfl) rfl rfl rfl rfl rfl

end Sys2Proof.Proofs
end

section
/-!
PROOFS. The status registers, the digest registers and ERR: where each field sits in the packed word.
-/

namespace Sys2Proof.Machine

open Sys2Proof

/-- The shared layout of SND_STATUS and RCV_STATUS as a sum of its fields (R34, R36). -/
theorem statusWord_toNat (state : BitVec 3) (flag : Bool) (count seq : Byte) (cause : AbortCause) :
    (statusWord state flag count seq cause).toNat =
      state.toNat + flag.toNat * 2 ^ 3 + count.toNat * 2 ^ 8 + seq.toNat * 2 ^ 16 +
        cause.code.toNat * 2 ^ 24 := by
  have hflag : flag.toNat < 2 ^ 1 := Bool.toNat_lt flag
  have hzero : (0#4).toNat < 2 ^ 4 := (0#4).isLt
  simp only [statusWord, BitVec.toNat_append, BitVec.toNat_ofBool,
    ← Nat.shiftLeft_add_eq_or_of_lt state.isLt, ← Nat.shiftLeft_add_eq_or_of_lt count.isLt,
    ← Nat.shiftLeft_add_eq_or_of_lt seq.isLt, ← Nat.shiftLeft_add_eq_or_of_lt hzero,
    ← Nat.shiftLeft_add_eq_or_of_lt hflag]
  simp only [Nat.shiftLeft_eq, BitVec.toNat_ofNat]
  omega

/-- Each field of a status word at its bits, zeros in [7:4] (R34, R36). -/
theorem statusWord_fields (state : BitVec 3) (flag : Bool) (count seq : Byte) (cause : AbortCause) :
    let w := (statusWord state flag count seq cause).toNat
    w % 2 ^ 3 = state.toNat ∧ w / 2 ^ 3 % 2 = flag.toNat ∧ w / 2 ^ 4 % 2 ^ 4 = 0 ∧
      w / 2 ^ 8 % 2 ^ 8 = count.toNat ∧ w / 2 ^ 16 % 2 ^ 8 = seq.toNat ∧ w / 2 ^ 24 = cause.code.toNat := by
  have hstate := state.isLt
  have hflag := Bool.toNat_lt flag
  have hcount := count.isLt
  have hseq := seq.isLt
  simp only [statusWord_toNat]
  omega

/-- ERR is its code in the low byte, zeros above it (R28, R149). -/
theorem readReg_err_toNat (s : State) : (s.readReg .err).toNat = s.err.code.toNat := by
  show (s.err.code.setWidth 32).toNat = _
  exact BitVec.toNat_setWidth_of_le (by decide)

/-- DGST2 holds the ninth digest byte only: past a nine-byte digest the packing reads zeros (R32). -/
theorem digestWord_two_toNat {s : State} (h : s.dgst.length = 9) :
    (s.digestWord 2).toNat = (s.dgst.getD 8 0).toNat := by
  have past : ∀ k, 9 ≤ k → s.dgst.getD k 0 = 0 := fun k hk => List.getD_eq_default _ _ (h ▸ hk)
  unfold State.digestWord
  rw [packWord_toNat, past _ (by decide), past _ (by decide), past _ (by decide)]
  simp

end Sys2Proof.Machine

namespace Sys2Proof.Proofs

open Sys2Proof Sys2Proof.Machine

/-- Settles O46: the fields from the shared status layout, the digest from the packing of four bytes. -/
theorem packedRegistersHoldTheirFields : Obligations.PackedRegistersHoldTheirFields := by
  refine ⟨by decide, by decide, rfl, fun _ => rfl, fun s => ?snd, fun s => ?rcv, fun s => ?err,
    fun s g hg hlen => ?dgst⟩
  case snd =>
    obtain ⟨hstate, hrest⟩ := statusWord_fields s.snd.state.code s.snd.resendPending s.snd.retryCount
      s.snd.expectedAck s.snd.cause
    refine ⟨hstate.trans ?_, hrest⟩
    cases s.snd.state <;> rfl
  case rcv =>
    obtain ⟨hstate, hrest⟩ := statusWord_fields s.rcv.state.code s.rcv.delivered s.rcv.timeoutCount
      s.rcv.expectedSeq s.rcv.cause
    refine ⟨hstate.trans ?_, hrest⟩
    cases s.rcv.state <;> rfl
  case err =>
    refine ⟨?_, readReg_err_toNat s, ?_⟩
    · show s.err.code.setWidth 32 = _
      cases s.err <;> rfl
    · rw [readReg_err_toNat]
      exact Nat.div_eq_of_lt s.err.code.isLt
  case dgst =>
    subst hg
    exact ⟨packWord_toNat _ _ _ _, packWord_toNat _ _ _ _, digestWord_two_toNat hlen⟩

end Sys2Proof.Proofs
end

section
/-!
PROOFS. The host interface: which register an offset holds, what each admitted access answers, and the
write that reaches CMD.
-/

namespace Sys2Proof.Machine

open Sys2Proof

/-! ### The register map of R23 -/

theorem regAt_eq_some {off : Nat} {r : Reg} (h : regAt off = some r) : off = r.offset := by
  unfold regAt at h
  split at h <;> cases h <;> rfl

theorem regAt_reserved {off : Nat} (h : 0x58 ≤ off) : regAt off = none := by
  cases hr : regAt off with
  | none => rfl
  | some r =>
    have hoff := regAt_eq_some hr
    cases r <;> simp only [Reg.offset] at hoff <;> omega

theorem readOffset_reserved (s : State) {off : Nat} (h : 0x58 ≤ off) : s.readOffset off = 0 := by
  unfold State.readOffset
  rw [regAt_reserved h]

/-- Only CMD, ARG, IN_LEN and PLEN take a write (R24). -/
theorem writeOffset_ignored (s : State) (v : Word) {off : Nat} (hcmd : off ≠ Reg.cmd.offset)
    (harg : off ≠ Reg.arg.offset) (hin : off ≠ Reg.inLen.offset) (hplen : off ≠ Reg.plen.offset) :
    writeOffset off v s = .next s := by
  cases hr : regAt off with
  | none => simp only [writeOffset, hr]
  | some r =>
    have hoff := regAt_eq_some hr
    cases r with
    | cmd => exact absurd hoff hcmd
    | arg => exact absurd hoff harg
    | inLen => exact absurd hoff hin
    | plen => exact absurd hoff hplen
    | _ => simp only [writeOffset, hr]

/-! ### Admitted accesses, window by window (R48 to R50) -/

section Access

variable {a : Word} {sp : Space} {i : Nat}

theorem hostAccess_readWord (s : State) (h : a.toNat ≤ 0xFF) (hal : a.toNat % 4 = 0) :
    hostAccess (.readWord a) s = .next (s.answer (.word (s.readOffset a.toNat))) := by
  simp only [hostAccess, hostReadWord, window_registers h, hal, if_true]

theorem hostAccess_writeWord (s : State) (v : Word) (h : a.toNat ≤ 0xFF) (hal : a.toNat % 4 = 0) :
    hostAccess (.writeWord a v) s = writeOffset a.toNat v s := by
  simp only [hostAccess, hostWriteWord, window_registers h, hal, if_true]

theorem hostAccess_readByte_buffer (s : State) (h : window a = .buffer sp i) :
    hostAccess (.readByte a) s = .next (s.answer (.byte (s.readIndex sp i))) := by
  simp only [hostAccess, hostReadByte, h]

theorem hostAccess_readByte_reserved (s : State) (h : window a = .reserved) :
    hostAccess (.readByte a) s = .next (s.answer (.byte 0)) := by
  simp only [hostAccess, hostReadByte, h]

theorem hostAccess_writeByte_buffer (s : State) (v : Byte) (h : window a = .buffer sp i) :
    hostAccess (.writeByte a v) s = .next (writeIndex sp i v s) := by
  simp only [hostAccess, hostWriteByte, h]

theorem hostAccess_writeByte_reserved (s : State) (v : Byte) (h : window a = .reserved) :
    hostAccess (.writeByte a v) s = .next s := by
  simp only [hostAccess, hostWriteByte, h]

/-- Every address of OBUF's window is byte `a - 0x20000` of it. -/
theorem window_obuf_of_range (hlo : 0x20000 ≤ a.toNat) (hhi : a.toNat ≤ 0x2FFFF) :
    window a = .buffer .obuf (a.toNat - 0x20000) := by
  have ha : a = toWord (0x20000 + (a.toNat - 0x20000)) := by
    rw [Nat.add_sub_cancel' hlo]
    simp [toWord]
  conv_lhs => rw [ha]
  exact window_obuf (by omega)

/-- A byte write at or past a buffer's size is ignored (R48). -/
theorem writeIndex_past (s : State) (v : Byte) (h : Params.size s.cfg sp ≤ i) : writeIndex sp i v s = s := by
  unfold writeIndex
  rw [if_neg (by omega)]

/-- OBUF is not writable from the host (R53). -/
theorem writeIndex_obuf (s : State) (v : Byte) : writeIndex .obuf i v s = s := ite_self s

theorem writeIndex_ibuf (s : State) (v : Byte) (h : i < s.cfg.ibufSize) :
    writeIndex .ibuf i v s = s.writeBytes .ibuf i [v] := if_pos h

end Access

/-- A one-byte write changes the byte read at its address and no other (R48). -/
theorem State.byteAt_writeByte (s : State) (sp : Space) (i : Nat) (b : Byte) (a : Nat) :
    (s.writeBytes sp i [b]).byteAt sp a = if a = i then b else s.byteAt sp a := by
  rw [State.byteAt_writeBytes]
  by_cases h : a = i
  · subst h
    simp
  · have hout : ¬(sp = sp ∧ i ≤ a ∧ a < i + [b].length) := by simp only [List.length_singleton]; omega
    rw [if_neg hout, if_neg h]

/-- A write to CMD runs the word (R25). -/
theorem perform_writeCmd (s : State) (w : Word) :
    perform (.host (.writeWord 0 w)) s = runCommand w s :=
  hostAccess_writeWord (a := 0) s w (by decide) (by decide)

theorem runCommand_of_decode {w : Word} {i : Instr} (h : decode w = .command i) (s : State) :
    runCommand w s = exec i s := by
  simp only [runCommand, h]

end Sys2Proof.Machine

namespace Sys2Proof.Proofs

open Sys2Proof Sys2Proof.Machine

/-- Settles O5: the scheduled write reaches CMD, and the word decodes to the command. -/
theorem stepRunsDecodedCommand : Obligations.StepRunsDecodedCommand := by
  intro s w i hlegal hdecode _
  have run : ∀ (u : State) (rest : List Action), u.cfg.legal = true →
      u.sched = .host (.writeWord 0 w) :: rest → step u = exec i { u with sched := rest } := by
    intro u rest hl hs
    rw [step_cons hl hs, perform_writeCmd, runCommand_of_decode hdecode]
  refine ⟨fun rest hs => run s rest hlegal hs, run (s.withFetchWord 32 w.toNat) s.sched hlegal ?_⟩
  have hword : BitVec.ofNat 32 (w.toNat % 2 ^ 32) = w := by
    rw [Nat.mod_eq_of_lt w.isLt, BitVec.ofNat_toNat, BitVec.setWidth_eq]
  show commandAction (BitVec.ofNat 32 (w.toNat % 2 ^ 32)) :: s.sched = _
  rw [hword, commandAction]

/-- Settles O41: the map by evaluation at each offset, the accesses window by window. -/
theorem readsOnlyAnswer : Obligations.ReadsOnlyAnswer := by
  intro s
  refine ⟨?map, fun a h hal => hostAccess_readWord s h hal,
    fun i hi => hostAccess_readByte_buffer s (window_ibuf hi),
    fun i hi => hostAccess_readByte_buffer s (window_obuf hi),
    fun i hi => hostAccess_readByte_buffer s (window_pmem hi),
    fun a ha => hostAccess_readByte_reserved s (window_reserved ha)⟩
  case map =>
    exact ⟨rfl, rfl, rfl, readReg_err_toNat s, rfl, rfl, rfl, rfl, rfl, rfl, rfl, rfl, rfl, rfl, rfl, rfl,
      rfl, rfl, rfl, rfl, rfl, rfl, fun off h => readOffset_reserved s h⟩

/-- Settles O42: no write reaches a register that is not writable, OBUF, or a byte past a size. -/
theorem ignoredWritesChangeNothing : Obligations.IgnoredWritesChangeNothing := by
  intro s
  refine ⟨rfl, fun off h => readOffset_reserved s h, ?readOnly, ?obuf,
    fun a v h => hostAccess_writeByte_reserved s v (window_reserved h), ?ibuf, ?pmem⟩
  case readOnly =>
    intro a v h hal hcmd harg hin hplen
    rw [hostAccess_writeWord s v h hal]
    exact writeOffset_ignored s v hcmd harg hin hplen
  case obuf =>
    intro a v hlo hhi
    rw [hostAccess_writeByte_buffer s v (window_obuf_of_range hlo hhi), writeIndex_obuf]
  case ibuf =>
    intro i v hpast hi
    have access := hostAccess_writeByte_buffer s v (window_ibuf hi)
    rwa [writeIndex_past s v hpast] at access
  case pmem =>
    intro i v hpast hi
    have access := hostAccess_writeByte_buffer s v (window_pmem hi)
    rwa [writeIndex_past s v hpast] at access

/-- Settles O44: the two registers by the write path, the byte by read after write. -/
theorem plainWritesReadBack : Obligations.PlainWritesReadBack := by
  intro s v
  refine ⟨hostAccess_writeWord s v (by decide) (by decide), rfl,
    hostAccess_writeWord s v (by decide) (by decide), rfl, ?ibuf⟩
  case ibuf =>
    intro i b hsize hi
    have access := hostAccess_writeByte_buffer s b (window_ibuf hi)
    rw [writeIndex_ibuf s b hsize] at access
    exact ⟨Memory.writeBytes s.ibuf i [b], access, State.byteAt_writeByte s .ibuf i b⟩

end Sys2Proof.Proofs
end

section
/-!
PROOFS. The payload (20_memory.md): the guard of R55 on PMEM and PLEN, the accesses that R49 and R50
refuse, and what no step changes while a sender session runs (R56).
-/

namespace Sys2Proof.Machine

open Sys2Proof

/-! ### The schedule -/

/-- With nothing scheduled a step keeps the state (R168, log 8). -/
theorem step_nil {s : State} (h : s.cfg.legal = true) (hs : s.sched = []) : step s = .next s := by
  simp only [step, h, if_true, performNext, hs]

/-! ### The guard of R55 -/

section Guard

variable {s : State}

theorem State.senderActive_iff :
    s.senderActive = true ↔ s.snd.state = .idle ∨ s.snd.state = .awaitingAck := by
  cases hst : s.snd.state <;> simp [State.senderActive, hst]

theorem State.senderInactive_iff :
    s.senderActive = false ↔ s.snd.state = .off ∨ s.snd.state = .done ∨ s.snd.state = .aborted := by
  cases hst : s.snd.state <;> simp [State.senderActive, hst]

theorem writePlen_active (v : Word) (h : s.senderActive = true) :
    writePlen v s = { s with err := .eBusy } := if_pos h

theorem writePlen_inactive (v : Word) (h : s.senderActive = false) :
    writePlen v s = { s with plen := v } := by
  simp only [writePlen, h, Bool.false_eq_true, if_false]

theorem writeIndex_pmem_active {i : Nat} (b : Byte) (hi : i < s.cfg.pmemSize) (h : s.senderActive = true) :
    writeIndex .pmem i b s = { s with err := .eBusy } := (if_pos hi).trans (if_pos h)

theorem writeIndex_pmem_inactive {i : Nat} (b : Byte) (hi : i < s.cfg.pmemSize)
    (h : s.senderActive = false) : writeIndex .pmem i b s = s.writeBytes .pmem i [b] := by
  refine (if_pos hi).trans ?_
  simp only [h, Bool.false_eq_true, if_false]

/-- A write to PLEN passes the guard only (R31). -/
theorem hostAccess_writePlen (s : State) (v : Word) :
    hostAccess (.writeWord 0x18 v) s = .next (writePlen v s) :=
  hostAccess_writeWord s v (by decide) (by decide)

/-- A byte write to PMEM's window reaches the byte that its address counts (R48). -/
theorem hostAccess_writePmem (s : State) {i : Nat} (b : Byte) (hi : i < 2 ^ 31) :
    hostAccess (.writeByte (BitVec.ofNat 32 (0x80000000 + i)) b) s = .next (writeIndex .pmem i b s) :=
  hostAccess_writeByte_buffer s b (window_pmem hi)

end Guard

/-! ### Refused accesses (R49, R50) -/

section Refused

variable {a : Word}

/-- Above the register window lie reserved addresses and buffers only (R48). -/
theorem window_above_registers (h : 0x100 ≤ a.toNat) :
    window a = .reserved ∨ ∃ sp i, window a = .buffer sp i := by
  have hreg : ¬a.toNat ≤ 0xFF := by omega
  unfold window
  simp only [hreg, if_false]
  split_ifs <;> simp

/-- An 8-bit access and one of a further width have no place in the register window (R49). -/
theorem hostAccess_registers_width (s : State) (b : Byte) (bits : Nat) (isWrite : Bool)
    (h : a.toNat ≤ 0xFF) :
    hostAccess (.readByte a) s = .refused .registerAccess ∧
      hostAccess (.writeByte a b) s = .refused .registerAccess ∧
      hostAccess (.otherWidth a bits isWrite) s = .refused .registerAccess := by
  simp only [hostAccess, hostReadByte, hostWriteByte, hostOtherWidth, window_registers h, and_self]

/-- A 32-bit access to the register window must be aligned (R49). -/
theorem hostAccess_registers_unaligned (s : State) (v : Word) (h : a.toNat ≤ 0xFF)
    (hal : a.toNat % 4 ≠ 0) :
    hostAccess (.readWord a) s = .refused .registerAccess ∧
      hostAccess (.writeWord a v) s = .refused .registerAccess := by
  simp only [hostAccess, hostReadWord, hostWriteWord, window_registers h, hal, if_false, and_self]

/-- Above the register window only 8-bit accesses are admitted (R50). -/
theorem hostAccess_above_registers_width (s : State) (v : Word) (bits : Nat) (isWrite : Bool)
    (h : 0x100 ≤ a.toNat) :
    hostAccess (.readWord a) s = .refused .bufferAccess ∧
      hostAccess (.writeWord a v) s = .refused .bufferAccess ∧
      hostAccess (.otherWidth a bits isWrite) s = .refused .bufferAccess := by
  rcases window_above_registers h with hw | ⟨sp, i, hw⟩ <;>
    simp only [hostAccess, hostReadWord, hostWriteWord, hostOtherWidth, hw, and_self]

end Refused

/-! ### The payload of a running session (R56) -/

/-- `t` has the payload of `s`: PMEM, with the draw that gives its unwritten bytes, PLEN, and the length
captured from it. -/
structure PayloadKept (s t : State) : Prop where
  pmem : t.pmem = s.pmem
  draw : t.draw = s.draw
  plen : t.plen = s.plen
  captured : t.snd.plen = s.snd.plen

section Payload

variable {s t : State}

theorem PayloadKept.byteAt (h : PayloadKept s t) (a : Nat) : t.byteAt .pmem a = s.byteAt .pmem a :=
  State.byteAt_congr (sp := .pmem) h.pmem h.draw a

/-- What a read of SND_RX yields never changes the captured length. -/
theorem sndEvent_plen (e : Option RxEvent) (s : State) : (sndEvent e s).snd.plen = s.snd.plen := by
  match e with
  | none => rfl
  | some (.msg m) =>
    show (sndMessage m s).snd.plen = _
    unfold sndMessage
    split <;> rfl
  | some .timeout =>
    show (sndTimeout s).snd.plen = _
    unfold sndTimeout
    dsimp only
    split <;> rfl
  | some .error => rfl

/-- The captured length changes in no row of R121; only SND_START captures. -/
theorem senderStep_plen (s : State) : (senderStep s).snd.plen = s.snd.plen := by
  cases hst : s.snd.state with
  | off => rw [senderStep_off hst]
  | done => rw [senderStep_done hst]
  | aborted => rw [senderStep_aborted hst]
  | idle =>
    rcases lt_trichotomy s.snd.off.toNat s.snd.plen.toNat with hlt | heq | hgt
    · rw [senderStep_build hst hlt]
      rfl
    · rw [senderStep_finish hst (BitVec.eq_of_toNat_eq heq)]
      rfl
    · rw [senderStep_past hst hgt]
  | awaitingAck =>
    cases hx : s.sndRx with
    | nil => rw [senderStep_wait hst hx]
    | cons x more => rw [senderStep_read hst hx, sndEvent_plen]

/-- The sender reads the payload and writes no part of it. -/
theorem payloadKept_senderStep (s : State) : PayloadKept s (senderStep s) := by
  rw [senderStep_eq_withSender]
  exact ⟨rfl, rfl, rfl, senderStep_plen s⟩

/-- The receiver has no access to the payload (R46). -/
theorem payloadKept_receiverStep (s : State) : PayloadKept s (receiverStep s) := by
  rw [receiverStep_eq_withReceiver]
  exact ⟨rfl, rfl, rfl, rfl⟩

/-- Of the commands only SND_START touches the payload, and an active sender refuses it (R120). -/
theorem payloadKept_exec {i : Instr} (hact : s.senderActive = true) (he : exec i s = .next t) :
    PayloadKept s t := by
  rcases exec_cases he with ⟨e, rfl⟩ | ⟨r, g, -, rfl⟩ | ⟨r, g, v, -, -, rfl⟩ | ⟨-, hinactive, -⟩ |
    ⟨-, -, rfl⟩
  case inr.inr.inr.inl => exact absurd hact (by simp [hinactive])
  all_goals exact ⟨rfl, rfl, rfl, rfl⟩

/-- The host reaches the payload through PMEM, PLEN and commands, and each is guarded (R55). -/
theorem payloadKept_hostAccess {acc : HostAccess} (hact : s.senderActive = true)
    (he : hostAccess acc s = .next t) : PayloadKept s t := by
  rcases hostAccess_cases he with rfl | ⟨v, rfl⟩ | ⟨v, rfl⟩ | ⟨v, rfl⟩ | ⟨hinactive, -⟩ | ⟨e, rfl⟩ |
    ⟨w, i, -, -, hexec⟩ | ⟨a, v, -, rfl⟩ | ⟨hinactive, -⟩
  iterate 4 exact ⟨rfl, rfl, rfl, rfl⟩
  · exact absurd hact (by simp [hinactive])
  · exact ⟨rfl, rfl, rfl, rfl⟩
  · exact payloadKept_exec hact hexec
  · exact ⟨rfl, rfl, rfl, rfl⟩
  · exact absurd hact (by simp [hinactive])

/-- A step of an active sender's block keeps the payload, unless it is reset. -/
theorem payloadKept_step (hact : s.senderActive = true) (hreset : ∀ rest, s.sched ≠ .reset :: rest)
    (hstep : step s = .next t) : PayloadKept s t := by
  obtain ⟨-, ⟨-, rfl⟩ | ⟨rest, hacts⟩⟩ := step_cases hstep
  · exact ⟨rfl, rfl, rfl, rfl⟩
  have untake : PayloadKept { s with sched := rest } t → PayloadKept s t := fun h =>
    ⟨h.pmem, h.draw, h.plen, h.captured⟩
  rcases hacts with ⟨acc, -, hacc⟩ | ⟨-, rfl⟩ | ⟨-, rfl⟩ | ⟨hs, -⟩
  · exact untake (payloadKept_hostAccess hact hacc)
  · exact untake (payloadKept_senderStep _)
  · exact untake (payloadKept_receiverStep _)
  · exact absurd hs (hreset rest)

end Payload

end Sys2Proof.Machine

namespace Sys2Proof.Proofs

open Sys2Proof Sys2Proof.Machine

/-- Settles O53, from what each agent's action keeps of the payload. -/
theorem payloadFrozenDuringSession : Obligations.PayloadFrozenDuringSession := by
  intro s t hsession hreset hstep
  have kept := payloadKept_step (State.senderActive_iff.2 hsession) hreset hstep
  exact ⟨kept.byteAt, kept.pmem, kept.plen, kept.captured⟩

/-- Settles O7: each scheduled action is one case of `perform`. -/
theorem stepPerformsScheduledAction : Obligations.StepPerformsScheduledAction := fun _ hlegal =>
  ⟨step_nil hlegal, fun _ => ⟨step_cons hlegal, step_cons hlegal, fun _ => step_cons hlegal⟩⟩

/-- Settles O43: both writes pass the same guard, and a stored byte is read back alone. -/
theorem payloadWritesAreGuarded : Obligations.PayloadWritesAreGuarded := by
  intro s i b v hsize hi
  dsimp only
  rw [hostAccess_writePmem s b hi, hostAccess_writePlen]
  refine ⟨fun hstate => ?active, fun hstate => ?inactive, rfl⟩
  case active =>
    have hact := State.senderActive_iff.2 hstate
    rw [writeIndex_pmem_active b hsize hact, writePlen_active v hact]
    exact ⟨rfl, rfl⟩
  case inactive =>
    have hact := State.senderInactive_iff.2 hstate
    rw [writeIndex_pmem_inactive b hsize hact, writePlen_inactive v hact]
    exact ⟨rfl, Memory.writeBytes s.pmem i [b], rfl, State.byteAt_writeByte s .pmem i b⟩

/-- Settles O45, by the window the address lies in. -/
theorem wrongAccessesAreRefused : Obligations.WrongAccessesAreRefused := by
  intro s a v b bits isWrite
  refine ⟨fun hreg => ?registers, fun habove => hostAccess_above_registers_width s v bits isWrite habove⟩
  case registers =>
    obtain ⟨hread, hwrite, hother⟩ := hostAccess_registers_width s b bits isWrite hreg
    exact ⟨hread, hwrite, hother, fun hal => hostAccess_registers_unaligned s v hreg hal⟩

end Sys2Proof.Proofs
end

section
/-!
PROOFS. The command word (30_encoding.md): its fields, the opcode table read in both directions, and the
decoder as the inverse of the encoder.
-/

namespace Sys2Proof

/-! ### The fields of a word (R73) -/

theorem cmdOp_toNat (w : Word) : (cmdOp w).toNat = w.toNat % 2 ^ 8 := by simp [cmdOp]

theorem cmdSeq_toNat (w : Word) : (cmdSeq w).toNat = w.toNat / 2 ^ 8 % 2 ^ 8 := by
  simp [cmdSeq, Nat.shiftRight_eq_div_pow]

theorem cmdRsvd_toNat (w : Word) : (cmdRsvd w).toNat = w.toNat / 2 ^ 16 := by
  have hw := w.isLt
  simp only [cmdRsvd, BitVec.extractLsb'_toNat, Nat.shiftRight_eq_div_pow]
  omega

/-- The three fields cover a word. -/
theorem word_eq_iff_fields {w v : Word} :
    w = v ↔ cmdRsvd w = cmdRsvd v ∧ cmdSeq w = cmdSeq v ∧ cmdOp w = cmdOp v := by
  simp only [← BitVec.toNat_inj, cmdRsvd_toNat, cmdSeq_toNat, cmdOp_toNat]
  omega

/-- A word that is a bare byte has it as OP, with SEQ and RSVD 0. -/
theorem fields_setWidth (op : Byte) :
    cmdRsvd (op.setWidth 32) = 0 ∧ cmdSeq (op.setWidth 32) = 0 ∧ cmdOp (op.setWidth 32) = op := by
  have hop := op.isLt
  have hword : (op.setWidth 32).toNat = op.toNat := BitVec.toNat_setWidth_of_le (by decide)
  simp only [← BitVec.toNat_inj, cmdRsvd_toNat, cmdSeq_toNat, cmdOp_toNat, hword, BitVec.ofNat_eq_ofNat,
    BitVec.toNat_ofNat]
  omega

/-- The mask 0xFFFF_00FF clears SEQ and keeps RSVD and OP. -/
theorem fields_masked (w : Word) :
    cmdRsvd (w &&& 0xFFFF00FF) = cmdRsvd w ∧ cmdSeq (w &&& 0xFFFF00FF) = 0 ∧
      cmdOp (w &&& 0xFFFF00FF) = cmdOp w := by
  simp only [cmdRsvd, cmdSeq, cmdOp, BitVec.extractLsb'_and]
  refine ⟨?rsvd, ?seq, ?op⟩
  case rsvd => exact BitVec.and_allOnes
  case seq => exact BitVec.and_zero
  case op => exact BitVec.and_allOnes

/-- Under the mask a word is a bare OP exactly when RSVD is 0 and OP is that value. -/
theorem masked_eq_op_iff (w : Word) (op : Byte) :
    w &&& 0xFFFF00FF = op.setWidth 32 ↔ cmdRsvd w = 0 ∧ cmdOp w = op := by
  obtain ⟨hrsvd, hseq, hop⟩ := fields_masked w
  obtain ⟨hrsvd', hseq', hop'⟩ := fields_setWidth op
  rw [word_eq_iff_fields, hrsvd, hseq, hop, hrsvd', hseq', hop']
  simp only [true_and]

/-! ### The opcode table (R75), read in both directions -/

theorem opcode_mem_definedOps (i : Instr) : (opcode i).toNat ∈ definedOps := by
  cases i <;> simp [opcode, definedOps]

/-- The opcode map is inverse to `opcode` and `seqField`. -/
theorem decodeOp_opcode (i : Instr) : decodeOp (opcode i) (seqField i) = some i := by
  cases i <;> rfl

/-- A command that ignores SEQ is selected whatever SEQ is. -/
theorem decodeOp_of_ignoresSeq {i : Instr} (h : Machine.readsSeq i = false) (seq : Byte) :
    decodeOp (opcode i) seq = some i := by
  cases i with
  | frameEncode _ | ackEncode _ | seqInc _ | seqEarlier _ => cases h
  | _ => rfl

/-- What the opcode map can answer: a command by its own OP, with SEQ as operand where the command reads
it, or nothing for an OP outside the table. -/
theorem decodeOp_cases (op seq : Byte) :
    (∃ i, decodeOp op seq = some i ∧
        op = opcode i ∧ (Machine.readsSeq i = true → seq = seqField i)) ∨
      (decodeOp op seq = none ∧ op.toNat ∉ definedOps) := by
  unfold decodeOp
  split
  case h_14 => exact .inr ⟨rfl, by simp_all [definedOps]⟩
  all_goals
    rename_i hop
    exact .inl ⟨_, rfl, BitVec.eq_of_toNat_eq hop, by simp [Machine.readsSeq, seqField]⟩

theorem decodeOp_eq_some_iff {op seq : Byte} {i : Instr} :
    decodeOp op seq = some i ↔ op = opcode i ∧ (Machine.readsSeq i = true → seq = seqField i) := by
  constructor
  · intro h
    obtain ⟨j, hj, hfields⟩ | ⟨hnone, _⟩ := decodeOp_cases op seq
    · cases hj.symm.trans h
      exact hfields
    · cases hnone.symm.trans h
  · rintro ⟨rfl, hseq⟩
    cases hreads : Machine.readsSeq i with
    | true => rw [hseq hreads, decodeOp_opcode]
    | false => exact decodeOp_of_ignoresSeq hreads seq

theorem exists_decodeOp_iff {op seq : Byte} :
    (∃ i, decodeOp op seq = some i) ↔ op.toNat ∈ definedOps := by
  constructor
  · rintro ⟨i, hi⟩
    rw [(decodeOp_eq_some_iff.1 hi).1]
    exact opcode_mem_definedOps i
  · intro hmem
    obtain ⟨i, hi, _⟩ | ⟨_, hnot⟩ := decodeOp_cases op seq
    · exact ⟨i, hi⟩
    · exact absurd hmem hnot

/-! ### The decoder -/

theorem decode_eq_command_iff {w : Word} {i : Instr} :
    decode w = .command i ↔ cmdRsvd w = 0 ∧ decodeOp (cmdOp w) (cmdSeq w) = some i := by
  unfold decode
  split
  · next h => cases decodeOp (cmdOp w) (cmdSeq w) <;> simp [h]
  · next h => exact ⟨nofun, fun ⟨hrsvd, _⟩ => absurd hrsvd h⟩

/-- Decoding has two outcomes, and a word has exactly one of them (R77). -/
theorem exists_illegal_iff {w : Word} :
    (∃ why, decode w = .illegal why) ↔ ¬ ∃ i, decode w = .command i := by
  cases decode w <;> simp

theorem commandWordLegal_iff {w : Word} :
    commandWordLegal w = true ↔ cmdRsvd w = 0 ∧ (cmdOp w).toNat ∈ definedOps := by
  rw [← BitVec.toNat_inj, cmdRsvd_toNat, cmdOp_toNat]
  simp [commandWordLegal]

/-- The legality test of R76 agrees with the decoder. -/
theorem commandWordLegal_iff_decode {w : Word} :
    commandWordLegal w = true ↔ ∃ i, decode w = .command i := by
  simp only [commandWordLegal_iff, decode_eq_command_iff, exists_and_left, exists_decodeOp_iff]

/-- Every command's word has the format of R73. -/
theorem encodeShape (i : Instr) : Laws.EncodeShape.Statement i := by
  cases i with
  | cksumCompute => exact Laws.EncodeShape.cksumCompute
  | cksumVerify => exact Laws.EncodeShape.cksumVerify
  | chunkCount => exact Laws.EncodeShape.chunkCount
  | chunkGet => exact Laws.EncodeShape.chunkGet
  | frameEncode seq => exact Laws.EncodeShape.frameEncode seq
  | frameDecode => exact Laws.EncodeShape.frameDecode
  | tokenClassify => exact Laws.EncodeShape.tokenClassify
  | tokenEmit => exact Laws.EncodeShape.tokenEmit
  | ackEncode seq => exact Laws.EncodeShape.ackEncode seq
  | seqInc seq => exact Laws.EncodeShape.seqInc seq
  | seqEarlier seq => exact Laws.EncodeShape.seqEarlier seq
  | sndStart => exact Laws.EncodeShape.sndStart
  | rcvStart => exact Laws.EncodeShape.rcvStart

end Sys2Proof

namespace Sys2Proof.Proofs

open Sys2Proof Sys2Proof.Machine

/-- Settles O1: the encoded word has the command's OP and operand as fields, from which the opcode map
finds the command again. -/
theorem decodeEncodeRoundTrip : Obligations.DecodeEncodeRoundTrip := by
  intro i _
  obtain ⟨hrsvd, hop, hseq, _⟩ := encodeShape i
  refine decode_eq_command_iff.2 ⟨hrsvd, ?_⟩
  rw [hop, hseq, decodeOp_opcode]

/-- Settles O2: the table's legality test agrees with the decoder, which leaves no third outcome. -/
theorem decodeTotalByTable : Obligations.DecodeTotalByTable := by
  intro w
  refine ⟨commandWordLegal_iff_decode, ?_⟩
  rw [exists_illegal_iff, ← commandWordLegal_iff_decode, Bool.not_eq_true]

/-- Settles O3: the mask tests RSVD and OP, and the opcode map compares SEQ where it is read. -/
theorem commandSelectedUnderMask : Obligations.CommandSelectedUnderMask := by
  intro w i
  rw [decode_eq_command_iff, decodeOp_eq_some_iff, masked_eq_op_iff, and_assoc]

/-- Settles O4: the decoder evaluated on each word. -/
theorem commandWordsDecode : Obligations.CommandWordsDecode := by
  refine ⟨?_, ?_, ?_, ?_, ?_, ?_⟩ <;> decide

end Sys2Proof.Proofs
end

section
/-!
PROOFS. The checksum codec (40_checksum.md): the word that selects a command, the byte sum, the digits of
the two digest formats, and what CKSUM_COMPUTE and CKSUM_VERIFY do.
-/

namespace Sys2Proof

/-! ### The word of an OP and a SEQ (R73) -/

/-- A word put together from an OP and a SEQ has them as fields, with RSVD 0. -/
theorem fields_opSeq (op seq : Byte) :
    let w : Word := seq.setWidth 32 <<< 8 ||| op.setWidth 32
    cmdRsvd w = 0 ∧ cmdSeq w = seq ∧ cmdOp w = op := by
  intro w
  have hop := op.isLt
  have hseq := seq.isLt
  have hword : w.toNat = seq.toNat * 2 ^ 8 + op.toNat := by
    simp only [w, BitVec.toNat_or, BitVec.toNat_shiftLeft, BitVec.toNat_setWidth,
      Nat.mod_eq_of_lt (lt_trans hop (by decide : 2 ^ 8 < 2 ^ 32)),
      Nat.mod_eq_of_lt (lt_trans hseq (by decide : 2 ^ 8 < 2 ^ 32))]
    rw [Nat.mod_eq_of_lt (by rw [Nat.shiftLeft_eq]; omega), ← Nat.shiftLeft_add_eq_or_of_lt hop,
      Nat.shiftLeft_eq]
  simp only [← BitVec.toNat_inj, cmdRsvd_toNat, cmdSeq_toNat, cmdOp_toNat, hword, BitVec.ofNat_eq_ofNat,
    BitVec.toNat_ofNat]
  omega

end Sys2Proof

namespace Sys2Proof.Machine

open Sys2Proof

/-- Words select a command exactly when the opcode map answers it at every SEQ. -/
theorem selectedBy_iff_decodeOp {op : Byte} {i : Byte → Instr} :
    selectedBy op i ↔ ∀ seq, decodeOp op seq = some (i seq) := by
  refine forall_congr' fun seq => ?_
  obtain ⟨hrsvd, hseq, hop⟩ := fields_opSeq op seq
  rw [decode_eq_command_iff, hrsvd, hseq, hop]
  simp only [true_and]

/-- A command that ignores SEQ is selected by its OP under any SEQ. -/
theorem selectedBy_of_ignoresSeq {i : Instr} (h : readsSeq i = false) :
    selectedBy (opcode i) fun _ => i :=
  selectedBy_iff_decodeOp.2 fun seq => decodeOp_of_ignoresSeq h seq

/-! ### The byte sum -/

/-- R87: the recursion of `bsum` adds the byte values. -/
theorem bsum_eq_sum (p : ByteString) : bsum p = (p.map BitVec.toNat).sum := by
  induction p with
  | nil => rfl
  | cons b p ih => rw [bsum_cons, ih, List.map_cons, List.sum_cons]

/-- R88: the byte sum does not see the order of the bytes. -/
theorem bsum_eq_of_perm {p q : ByteString} (h : p.Perm q) : bsum p = bsum q := by
  rw [bsum_eq_sum, bsum_eq_sum, (h.map BitVec.toNat).sum_eq]

/-- Replacing one byte moves the byte sum by the difference of the two bytes. -/
theorem bsum_replace (pre post : ByteString) (b c : Byte) :
    bsum (pre ++ [c] ++ post) + b.toNat = bsum (pre ++ [b] ++ post) + c.toNat := by
  simp only [bsum_append, bsum_cons, bsum_nil]
  omega

/-! ### Digits -/

/-- A shift by whole digits of `w` bits and a one-digit mask pick out digit `k` in base 2^w. -/
theorem shiftRight_and_mask_eq_digit (m w k : Nat) :
    m >>> (w * k) &&& (2 ^ w - 1) = m / (2 ^ w) ^ k % 2 ^ w := by
  rw [Nat.and_two_pow_sub_one_eq_mod, Nat.shiftRight_eq_div_pow, pow_mul]

/-- The `k` lowest digits of a number determine it mod base^k. -/
theorem mod_pow_eq_of_digits_eq {base m n : Nat} (k : Nat)
    (h : ∀ i < k, m / base ^ i % base = n / base ^ i % base) : m % base ^ k = n % base ^ k := by
  induction k with
  | zero => simp only [pow_zero, Nat.mod_one]
  | succ k ih =>
    rw [Nat.mod_pow_succ, Nat.mod_pow_succ, ih fun i hi => h i (Nat.lt_succ_of_lt hi),
      h k (Nat.lt_succ_self k)]

/-- R89: the ASCII code of a digit value below 16. -/
theorem hexDigit_toNat {d : Nat} (h : d < 16) :
    (hexDigit d).toNat = if d < 10 then 0x30 + d else 0x61 + (d - 10) := by
  unfold hexDigit
  split_ifs <;> rw [BitVec.toNat_ofNat, Nat.mod_eq_of_lt (by omega)]

/-- Different digit values have different ASCII codes. -/
theorem eq_of_hexDigit_eq {d e : Nat} (hd : d < 16) (he : e < 16) (h : hexDigit d = hexDigit e) :
    d = e := by
  have hcode := congrArg BitVec.toNat h
  rw [hexDigit_toNat hd, hexDigit_toNat he] at hcode
  split_ifs at hcode <;> omega

/-! ### The two digest formats -/

/-- Both formats list nine digits, the highest first. -/
theorem getD_map_descending (g : Nat → Byte) {j : Nat} (hj : j < 9) :
    ([8, 7, 6, 5, 4, 3, 2, 1, 0].map g).getD j 0 = g (8 - j) := by
  interval_cases j <;> rfl

theorem fmt9_hex9_getD (n : Nat) {j : Nat} (hj : j < 9) :
    (fmt9 .hex9 n).getD j 0 = hexDigit (n % 2 ^ 36 / 16 ^ (8 - j) % 16) :=
  getD_map_descending (fun k => hexDigit (n % 2 ^ 36 / 16 ^ k % 16)) hj

theorem fmt9_bin9_getD (n : Nat) {j : Nat} (hj : j < 9) :
    (fmt9 .bin9 n).getD j 0 = BitVec.ofNat 8 (n % 2 ^ 72 / 256 ^ (8 - j) % 256) :=
  getD_map_descending (fun k => BitVec.ofNat 8 (n % 2 ^ 72 / 256 ^ k % 256)) hj

/-- HEX9 keeps the sum mod 16^9: the nine characters give back the nine digits. -/
theorem mod_eq_of_fmt9_hex9_eq {m n : Nat} (h : fmt9 .hex9 m = fmt9 .hex9 n) :
    m % 16 ^ 9 = n % 16 ^ 9 := by
  have hdigits : ∀ k < 9, m % 2 ^ 36 / 16 ^ k % 16 = n % 2 ^ 36 / 16 ^ k % 16 := by
    intro k hk
    have hj : 8 - k < 9 := by omega
    have hback : 8 - (8 - k) = k := by omega
    have hchar := congrArg (fun l => l.getD (8 - k) 0) h
    simp only [fmt9_hex9_getD _ hj, hback] at hchar
    exact eq_of_hexDigit_eq (Nat.mod_lt _ (by decide)) (Nat.mod_lt _ (by decide)) hchar
  have hmod := mod_pow_eq_of_digits_eq 9 hdigits
  rwa [show (16 : Nat) ^ 9 = 2 ^ 36 by decide, Nat.mod_mod, Nat.mod_mod] at hmod

/-- Below 16^9, strings with the same HEX9 digest have the same byte sum. -/
theorem bsum_eq_of_hex9_eq {p q : ByteString} (hp : bsum p < 16 ^ 9) (hq : bsum q < 16 ^ 9)
    (h : digest .hex9 p = digest .hex9 q) : bsum p = bsum q := by
  have hmod := mod_eq_of_fmt9_hex9_eq h
  rwa [Nat.mod_eq_of_lt hp, Nat.mod_eq_of_lt hq] at hmod

/-! ### The two commands -/

section Commands

variable {s : State}

theorem State.inputTooLong_eq_true_iff : s.inputTooLong = true ↔ s.cfg.ibufSize < s.inLen.toNat :=
  decide_eq_true_iff

theorem State.inputTooLong_eq_false_iff : s.inputTooLong = false ↔ s.inLen.toNat ≤ s.cfg.ibufSize := by
  rw [← Bool.not_eq_true, State.inputTooLong_eq_true_iff, not_lt]

/-- The verdict register holds 1 when the digest is the one compared with, else 0 (R93, R96). -/
theorem verdictBit_verify (f : DigestFormat) (p d : ByteString) :
    verdictBit (verify f p d) = if digest f p = d then 1 else 0 := by
  simp only [verdictBit, verify, beq_iff_eq]

theorem exec_cksumCompute_tooLong (h : s.inputTooLong = true) : exec .cksumCompute s = raise .eLen s :=
  if_pos h

theorem exec_cksumCompute_fits (h : s.inputTooLong = false) :
    exec .cksumCompute s =
      succeed (toWord (bsum s.input))
        ((s.setDigest (digest s.cfg.digestFormat s.input)).output (digest s.cfg.digestFormat s.input)) :=
  if_neg (ne_true_of_eq_false h)

theorem exec_cksumVerify_tooLong (h : s.inputTooLong = true) : exec .cksumVerify s = raise .eLen s :=
  if_pos h

theorem exec_cksumVerify_short (h : s.inputTooLong = false) (hlen : s.inLen.toNat < 9) :
    exec .cksumVerify s = raise .eShort s :=
  (if_neg (ne_true_of_eq_false h)).trans (if_pos hlen)

theorem exec_cksumVerify_fits (h : s.inputTooLong = false) (hlen : 9 ≤ s.inLen.toNat) :
    let p := s.readBytes .ibuf 0 (s.inLen.toNat - 9)
    let d := s.readBytes .ibuf (s.inLen.toNat - 9) 9
    exec .cksumVerify s =
      succeed (verdictBit (verify s.cfg.digestFormat p d)) (s.setDigest (digest s.cfg.digestFormat p)) :=
  (if_neg (ne_true_of_eq_false h)).trans (if_neg (not_lt.2 hlen))

end Commands

end Sys2Proof.Machine

namespace Sys2Proof.Proofs

open Sys2Proof Sys2Proof.Machine

/-- Settles O9: an input that fits gives one write of the nine digest bytes to OBUF beside the register
updates. -/
theorem cksumComputeWritesDigestAndSum : Obligations.CksumComputeWritesDigestAndSum := by
  refine ⟨selectedBy_of_ignoresSeq (i := .cksumCompute) rfl,
    fun s => ⟨fun hlong => ?tooLong, fun hfits => ?fits⟩⟩
  case tooLong =>
    rw [exec_cksumCompute_tooLong (State.inputTooLong_eq_true_iff.2 hlong), raise_eq]
  case fits =>
    refine ⟨Memory.writeBytes s.obuf 0 (digest s.cfg.digestFormat s.input), ?next,
      obufIs_of_writeBytes rfl rfl⟩
    rw [exec_cksumCompute_fits (State.inputTooLong_eq_false_iff.2 hfits), succeed_eq, State.output,
      digest_length]
    rfl

/-- Settles O33: the byte sum is a sum, which a permutation keeps; the digest reads the sum only. -/
theorem digestIsOrderFreeSum : Obligations.DigestIsOrderFreeSum :=
  ⟨bsum_eq_sum, fun f _ _ h => ⟨bsum_eq_of_perm h, congrArg (fmt9 f) (bsum_eq_of_perm h)⟩⟩

/-- Settles O34: a shift and a mask pick out the digit that each format writes. -/
theorem digestFormatsByteByByte : Obligations.DigestFormatsByteByByte := by
  refine ⟨fun n j hj => ⟨fmt9_length _ _, fmt9_length _ _, ?hex9, ?bin9⟩,
    fun f p => ⟨rfl, digest_length f p⟩⟩
  case hex9 =>
    intro d hd
    rw [show 0xF = 2 ^ 4 - 1 by decide, shiftRight_and_mask_eq_digit] at hd
    rw [fmt9_hex9_getD n hj, hd]
    exact hexDigit_toNat (Nat.mod_lt _ (by decide))
  case bin9 =>
    rw [show 0xFF = 2 ^ 8 - 1 by decide, shiftRight_and_mask_eq_digit, fmt9_bin9_getD n hj,
      BitVec.toNat_ofNat]
    exact Nat.mod_mod _ _

/-- Settles O35: the new sum differs by at most 255, so HEX9 writes both sums whole and tells them
apart. -/
theorem singleByteChangeIsDetected : Obligations.SingleByteChangeIsDetected := by
  intro pre post b c hne hsum heq
  have hmove := bsum_replace pre post b c
  have hbyte : c.toNat < 2 ^ 8 := c.isLt
  have hsame : bsum (pre ++ [b] ++ post) = bsum (pre ++ [c] ++ post) :=
    bsum_eq_of_hex9_eq (by omega) (by omega) heq
  exact hne (BitVec.eq_of_toNat_eq (by omega))

/-- Settles O10: the two length tests in order, then the comparison as the verdict bit. -/
theorem cksumVerifyComparesDigest : Obligations.CksumVerifyComparesDigest := by
  refine ⟨selectedBy_of_ignoresSeq (i := .cksumVerify) rfl,
    fun s => ⟨fun hlong => ?tooLong, fun hfits hshort => ?tooShort, fun hfits hlen => ?compare⟩⟩
  case tooLong =>
    rw [exec_cksumVerify_tooLong (State.inputTooLong_eq_true_iff.2 hlong), raise_eq]
  case tooShort =>
    rw [exec_cksumVerify_short (State.inputTooLong_eq_false_iff.2 hfits) hshort, raise_eq]
  case compare =>
    rw [exec_cksumVerify_fits (State.inputTooLong_eq_false_iff.2 hfits) hlen, verdictBit_verify,
      succeed_eq]
    rfl

end Sys2Proof.Proofs
end

section
/-!
PROOFS. The frame codec (41_frame_codec.md): chunks as slices of the payload, frames split at their end,
control tokens, and what the six commands of the codec do.
-/

namespace Sys2Proof.Machine

open Sys2Proof

/-! ### Chunks (R97, R98) -/

/-- Chunk `k` exists exactly when it starts inside the payload. -/
theorem lt_ceilDiv_iff {n c k : Nat} (hc : 1 ≤ c) : k < ceilDiv n c ↔ k * c < n := by
  rw [ceilDiv, ← Nat.succ_le_iff, Nat.le_div_iff_mul_le hc, Nat.succ_mul]
  omega

section Chunks

variable {c : Nat} {p : ByteString}

/-- A nonempty rest gets shorter by a slice, so one unit of fuel pays for it. -/
theorem length_drop_cons_le {b : Byte} {fuel : Nat} (hc : 1 ≤ c) (h : (b :: p).length ≤ fuel + 1) :
    ((b :: p).drop c).length ≤ fuel := by
  rw [List.length_drop]
  omega

/-- Enough fuel gives every slice that starts inside the payload, and no other. -/
theorem chunksFuel_getElem? (hc : 1 ≤ c) (fuel : Nat) (hfuel : p.length ≤ fuel) (k : Nat) :
    (chunksFuel c fuel p)[k]? = if k * c < p.length then some ((p.drop (k * c)).take c) else none := by
  induction fuel generalizing p k with
  | zero =>
    obtain rfl := List.eq_nil_of_length_eq_zero (Nat.le_zero.1 hfuel)
    rfl
  | succ fuel ih =>
    cases p with
    | nil => rfl
    | cons b p =>
      cases k with
      | zero => simp [chunksFuel]
      | succ k =>
        have hstart : k * c < ((b :: p).drop c).length ↔ (k + 1) * c < (b :: p).length := by
          rw [List.length_drop, Nat.succ_mul]
          omega
        rw [chunksFuel, List.getElem?_cons_succ, ih (length_drop_cons_le hc hfuel), List.drop_drop,
          Nat.add_comm c, ← Nat.succ_mul]
        simp only [hstart]

theorem chunks_getElem? (hc : 1 ≤ c) (k : Nat) :
    (chunks c p)[k]? = if k * c < p.length then some ((p.drop (k * c)).take c) else none :=
  chunksFuel_getElem? hc p.length le_rfl k

/-- R97: chunk `k` is the slice from `k * c` on. -/
theorem chunks_getElem?_of_lt (hc : 1 ≤ c) {k : Nat} (hk : k < ceilDiv p.length c) :
    (chunks c p)[k]? = some ((p.drop (k * c)).take c) := by
  rw [chunks_getElem? hc, if_pos ((lt_ceilDiv_iff hc).1 hk)]

/-- R98: the number of chunks, read off from where the list of slices ends. -/
theorem chunks_length (hc : 1 ≤ c) : (chunks c p).length = ceilDiv p.length c := by
  refine eq_of_forall_ge_iff fun k => ?_
  rw [← List.getElem?_eq_none_iff, chunks_getElem? hc, ← not_lt, lt_ceilDiv_iff hc]
  simp only [ite_eq_right_iff, reduceCtorEq, imp_false]

/-- Chunk `k` is full, or as long as what is left of the payload. -/
theorem chunks_getD_length (hc : 1 ≤ c) {k : Nat} (hk : k < ceilDiv p.length c) :
    ((chunks c p).getD k []).length = min c (p.length - k * c) := by
  rw [List.getD_eq_getElem?_getD, chunks_getElem?_of_lt hc hk, Option.getD_some, List.length_take,
    List.length_drop]

theorem chunksFuel_flatten (hc : 1 ≤ c) (fuel : Nat) (hfuel : p.length ≤ fuel) :
    (chunksFuel c fuel p).flatten = p := by
  induction fuel generalizing p with
  | zero => exact (List.eq_nil_of_length_eq_zero (Nat.le_zero.1 hfuel)).symm
  | succ fuel ih =>
    cases p with
    | nil => rfl
    | cons b p =>
      rw [chunksFuel, List.flatten_cons, ih (length_drop_cons_le hc hfuel), List.take_append_drop]

/-- R97: the chunks in order are the payload. -/
theorem chunks_flatten (hc : 1 ≤ c) : (chunks c p).flatten = p :=
  chunksFuel_flatten hc p.length le_rfl

end Chunks

/-- A slice of what storage reads is what a shorter read gives. -/
theorem State.take_drop_readBytes (s : State) (sp : Space) (a len start n : Nat) :
    ((s.readBytes sp a len).drop start).take n = s.readBytes sp (a + start) (min n (len - start)) := by
  apply List.ext_getElem?
  intro i
  simp only [List.getElem?_take, List.getElem?_drop, State.readBytes_getElem?, Nat.add_assoc]
  rw [← ite_and]
  exact if_congr (by omega) rfl rfl

/-! ### Frames (R99 to R101) -/

/-- A message of at least ten bytes has a byte at its end and nine before that. -/
theorem exists_frame_split {w : ByteString} (h : 10 ≤ w.length) :
    ∃ p d seq, w = p ++ d ++ [seq] ∧ d.length = 9 := by
  have hne : w ≠ [] := List.ne_nil_of_length_pos (by omega)
  refine ⟨w.dropLast.take (w.length - 10), w.dropLast.drop (w.length - 10), w.getLast hne, ?_, ?_⟩
  · rw [List.take_append_drop, List.dropLast_append_getLast hne]
  · rw [List.length_drop, List.length_dropLast]; omega

theorem frameFields_eq_none_iff {w : ByteString} : frameFields w = none ↔ w.length < 10 := by
  simp only [frameFields, ite_eq_left_iff, reduceCtorEq, imp_false, not_not]

/-- Decoding answers the one split of a message at its end (R79, R100). -/
theorem frameFields_eq_some_iff {w : ByteString} {x : FrameFields} :
    frameFields w = some x ↔ w = x.payload ++ x.checksum ++ [x.seq] ∧ x.checksum.length = 9 := by
  constructor
  · intro h
    obtain ⟨p, d, seq, rfl, hd⟩ := exists_frame_split (frameFields_payload_length h).2
    obtain rfl := Option.some.inj ((frameFields_append p d seq hd).symm.trans h)
    exact ⟨rfl, hd⟩
  · rintro ⟨rfl, hd⟩
    exact frameFields_append _ _ _ hd

/-! ### Control tokens (R80, R102) -/

theorem tokenOfCode_code (t : Token) : tokenOfCode t.code = some t := by cases t <;> rfl

theorem tokenOfCode_eq_none {k : Nat} (h : k < 1 ∨ 4 < k) : tokenOfCode k = none := by
  unfold tokenOfCode
  split
  case h_5 => rfl
  all_goals omega

/-- A code names one token: `tokenOfCode` finds it again. -/
theorem Token.code_injective {t u : Token} (h : t.code = u.code) : t = u :=
  Option.some.inj (by rw [← tokenOfCode_code t, h, tokenOfCode_code])

theorem tokenClass_wire (t : Token) : tokenClass t.wire = t.code := by cases t <;> rfl

theorem Token.code_bounds (t : Token) : 1 ≤ t.code ∧ t.code ≤ 4 := by cases t <;> decide

/-- What a message can be classified as: the token whose wire value it is, or no token. -/
theorem tokenClass_cases (m : ByteString) :
    (∃ t : Token, m = t.wire ∧ tokenClass m = t.code) ∨ ((∀ t : Token, m ≠ t.wire) ∧ tokenClass m = 0) := by
  by_cases h : ∃ t : Token, m = t.wire
  · obtain ⟨t, rfl⟩ := h
    exact .inl ⟨t, rfl, tokenClass_wire t⟩
  · have hne : ∀ t : Token, m ≠ t.wire := fun t ht => h ⟨t, ht⟩
    exact .inr ⟨hne, by simp only [tokenClass, hne, if_false]⟩

theorem tokenClass_eq_code_iff {m : ByteString} {t : Token} : tokenClass m = t.code ↔ m = t.wire := by
  constructor
  · intro h
    obtain ⟨u, hm, hcode⟩ | ⟨_, hzero⟩ := tokenClass_cases m
    · rw [hm, Token.code_injective (hcode.symm.trans h)]
    · have := t.code_bounds
      omega
  · rintro rfl
    exact tokenClass_wire t

theorem tokenClass_eq_zero_iff {m : ByteString} : tokenClass m = 0 ↔ ∀ t : Token, m ≠ t.wire := by
  constructor
  · rintro h t rfl
    have := t.code_bounds
    rw [tokenClass_wire] at h
    omega
  · intro h
    obtain ⟨t, hm, _⟩ | ⟨_, hzero⟩ := tokenClass_cases m
    · exact absurd hm (h t)
    · exact hzero

theorem Token.wire_length_cases (t : Token) : t.wire.length = 4 ∨ t.wire.length = 7 := by
  cases t <;> decide

/-! ### The commands -/

/-- RESULT of FRAME_DECODE as a number: the verdict stands above the byte of the seq code (R107). -/
theorem decodeResult_verify (f : DigestFormat) (p d : ByteString) (seq : Byte) :
    decodeResult seq (verify f p d) =
      BitVec.ofNat 32 (seq.toNat + (if digest f p = d then 2 ^ 8 else 0)) := by
  have hseq : seq.toNat < 2 ^ 8 := seq.isLt
  have hword : (seq.setWidth 32).toNat = seq.toNat := BitVec.toNat_setWidth_of_le (by decide)
  apply BitVec.eq_of_toNat_eq
  simp only [decodeResult, verify, beq_iff_eq, BitVec.toNat_or, hword, BitVec.toNat_ofNat]
  split_ifs
  · rw [Nat.mod_eq_of_lt (by omega), Nat.add_comm]
    exact (Nat.or_comm _ _).trans (Nat.shiftLeft_add_eq_or_of_lt hseq 1).symm
  · rw [Nat.mod_eq_of_lt (by omega)]
    exact Nat.or_zero _

section Commands

variable {s : State}

theorem State.payloadTooLong_eq_true_iff : s.payloadTooLong = true ↔ s.cfg.pmemSize < s.plen.toNat :=
  decide_eq_true_iff

theorem State.payloadTooLong_eq_false_iff : s.payloadTooLong = false ↔ s.plen.toNat ≤ s.cfg.pmemSize := by
  rw [← Bool.not_eq_true, State.payloadTooLong_eq_true_iff, not_lt]

/-- A command that ends by writing `v` to OBUF and `g` to DGST changes OBUF, OUT_LEN, DGST, RESULT and ERR
only. -/
theorem exists_succeed_output_setDigest {v g : ByteString} {r n : Word} (hlen : toWord v.length = n) :
    ∃ m : Memory,
      let t := { s with dgst := g, obuf := m, outLen := n, result := r, err := .eNone }
      succeed r ((s.output v).setDigest g) = .next t ∧ obufIs s t v := by
  subst hlen
  exact ⟨Memory.writeBytes s.obuf 0 v, succeed_eq _ _, obufIs_of_writeBytes rfl rfl⟩

/-- A command that ends by writing `v` to OBUF changes OBUF, OUT_LEN, RESULT and ERR only. -/
theorem exists_succeed_output {v : ByteString} {r n : Word} (hlen : toWord v.length = n) :
    ∃ m : Memory,
      let t := { s with obuf := m, outLen := n, result := r, err := .eNone }
      succeed r (s.output v) = .next t ∧ obufIs s t v :=
  exists_succeed_output_setDigest (g := s.dgst) hlen

theorem exec_chunkCount_tooLong (h : s.payloadTooLong = true) : exec .chunkCount s = raise .eLen s :=
  if_pos h

theorem exec_chunkCount_fits (h : s.payloadTooLong = false) :
    exec .chunkCount s = succeed (toWord (ceilDiv s.plen.toNat s.cfg.chunkSize)) s :=
  if_neg (ne_true_of_eq_false h)

theorem exec_chunkGet_tooLong (h : s.payloadTooLong = true) : exec .chunkGet s = raise .eLen s :=
  if_pos h

theorem exec_chunkGet_range (h : s.payloadTooLong = false)
    (harg : ceilDiv s.plen.toNat s.cfg.chunkSize ≤ s.arg.toNat) : exec .chunkGet s = raise .eRange s :=
  (if_neg (ne_true_of_eq_false h)).trans (if_pos harg)

theorem exec_chunkGet_fits (h : s.payloadTooLong = false)
    (harg : s.arg.toNat < ceilDiv s.plen.toNat s.cfg.chunkSize) :
    let start := s.arg.toNat * s.cfg.chunkSize
    let n := min s.cfg.chunkSize (s.plen.toNat - start)
    exec .chunkGet s = succeed (toWord n) (s.output (s.readBytes .pmem start n)) :=
  (if_neg (ne_true_of_eq_false h)).trans (if_neg (not_le.2 harg))

/-- Both length tests of FRAME_ENCODE raise the same code. -/
theorem exec_frameEncode_tooLong {seq : Byte}
    (h : s.inputTooLong = true ∨ s.cfg.chunkSize < s.inLen.toNat) :
    exec (.frameEncode seq) s = raise .eLen s := by
  cases hin : s.inputTooLong with
  | true => exact if_pos hin
  | false =>
    have hchunk := h.resolve_left (ne_true_of_eq_false hin)
    exact (if_neg (ne_true_of_eq_false hin)).trans (if_pos hchunk)

theorem exec_frameEncode_fits {seq : Byte} (h : s.inputTooLong = false)
    (hchunk : s.inLen.toNat ≤ s.cfg.chunkSize) :
    exec (.frameEncode seq) s =
      succeed (s.inLen + 10)
        ((s.output (frameBytes s.cfg.digestFormat s.input seq)).setDigest
          (digest s.cfg.digestFormat s.input)) :=
  (if_neg (ne_true_of_eq_false h)).trans (if_neg (not_lt.2 hchunk))

theorem State.input_length : s.input.length = s.inLen.toNat := State.readBytes_length _ _ _ _

/-- The input's fields, at their places in IBUF (R100, R107). -/
theorem frameFields_input (h : 10 ≤ s.inLen.toNat) :
    let n := s.inLen.toNat - 10
    frameFields s.input =
      some { payload := s.readBytes .ibuf 0 n, checksum := s.readBytes .ibuf n 9,
             seq := s.byteAt .ibuf (n + 9) } := by
  intro n
  have hlen : s.inLen.toNat = n + 9 + 1 := by omega
  refine frameFields_eq_some_iff.2 ⟨?_, State.readBytes_length _ _ _ _⟩
  rw [State.input, hlen, State.readBytes_append, State.readBytes_append, Nat.zero_add, Nat.zero_add]
  rfl

theorem exec_frameDecode_tooLong (h : s.inputTooLong = true) : exec .frameDecode s = raise .eLen s :=
  if_pos h

theorem exec_frameDecode_short (h : s.inputTooLong = false) (hlen : s.inLen.toNat < 10) :
    exec .frameDecode s = raise .eShort s := by
  have hnone : frameFields s.input = none := frameFields_eq_none_iff.2 (State.input_length.trans_lt hlen)
  refine (if_neg (ne_true_of_eq_false h)).trans ?_
  rw [hnone]

theorem exec_frameDecode_fields {x : FrameFields} (h : s.inputTooLong = false)
    (hx : frameFields s.input = some x) :
    exec .frameDecode s =
      if s.cfg.obufSize < x.payload.length then raise .eLen s
      else
        succeed (decodeResult x.seq (verify s.cfg.digestFormat x.payload x.checksum))
          ((s.output x.payload).setDigest x.checksum) := by
  refine (if_neg (ne_true_of_eq_false h)).trans ?_
  rw [hx]

theorem exec_tokenClassify_tooLong (h : s.inputTooLong = true) : exec .tokenClassify s = raise .eLen s :=
  if_pos h

theorem exec_tokenClassify_fits (h : s.inputTooLong = false) :
    exec .tokenClassify s = succeed (toWord (tokenClass s.input)) s :=
  if_neg (ne_true_of_eq_false h)

theorem exec_tokenEmit_range (h : s.arg.toNat < 1 ∨ 4 < s.arg.toNat) :
    exec .tokenEmit s = raise .eRange s := by
  rw [exec, execTokenEmit, tokenOfCode_eq_none h]

theorem exec_tokenEmit_token {t : Token} (h : s.arg.toNat = t.code) :
    exec .tokenEmit s = succeed (toWord t.wire.length) (s.output t.wire) := by
  rw [exec, execTokenEmit, h, tokenOfCode_code]

theorem exec_ackEncode (seq : Byte) : exec (.ackEncode seq) s = succeed 1 (s.output (ackBytes seq)) := rfl

end Commands

end Sys2Proof.Machine

namespace Sys2Proof.Proofs

open Sys2Proof Sys2Proof.Machine

/-- Settles O12: ARG below the chunk count puts the chunk's start inside the payload, where the slice of
R97 is the read that CHUNK_GET makes. -/
theorem chunkGetCopiesChunk : Obligations.ChunkGetCopiesChunk := by
  refine ⟨selectedBy_of_ignoresSeq (i := .chunkGet) rfl,
    fun s hc => ⟨fun hlong => ?tooLong, fun hfits harg => ?range, fun hfits harg => ?copy⟩⟩
  case tooLong =>
    rw [exec_chunkGet_tooLong (State.payloadTooLong_eq_true_iff.2 hlong), raise_eq]
  case range =>
    rw [exec_chunkGet_range (State.payloadTooLong_eq_false_iff.2 hfits) harg, raise_eq]
  case copy =>
    refine ⟨(lt_ceilDiv_iff hc).1 harg, ?slice, ?next⟩
    case slice =>
      rw [chunks_getElem?_of_lt hc (by rwa [State.readBytes_length]), State.take_drop_readBytes,
        Nat.zero_add]
    case next =>
      rw [exec_chunkGet_fits (State.payloadTooLong_eq_false_iff.2 hfits) harg]
      exact exists_succeed_output (congrArg toWord (State.readBytes_length _ _ _ _))

/-- Settles O13: within both limits the frame of the input is written, ten bytes longer than it. -/
theorem frameEncodeBuildsFrame : Obligations.FrameEncodeBuildsFrame := by
  refine ⟨selectedBy_iff_decodeOp.2 fun seq => decodeOp_opcode (.frameEncode seq),
    fun seq s => ⟨fun hlong => ?tooLong, fun hfits hchunk => ?encode⟩⟩
  case tooLong =>
    rw [exec_frameEncode_tooLong (hlong.imp_left State.inputTooLong_eq_true_iff.2), raise_eq]
  case encode =>
    have hresult : s.inLen + 10 = toWord (s.inLen.toNat + 10) := by
      rw [toWord, BitVec.ofNat_add, BitVec.ofNat_toNat, BitVec.setWidth_eq]
      rfl
    have hlen : toWord (frameBytes s.cfg.digestFormat s.input seq).length = toWord (s.inLen.toNat + 10) := by
      rw [frameBytes_length, State.input_length]
    rw [exec_frameEncode_fits (State.inputTooLong_eq_false_iff.2 hfits) hchunk, hresult]
    exact exists_succeed_output_setDigest hlen

/-- Settles O14: the three length tests in order, then the fields at their places in IBUF. -/
theorem frameDecodeSplitsFrame : Obligations.FrameDecodeSplitsFrame := by
  refine ⟨selectedBy_of_ignoresSeq (i := .frameDecode) rfl, fun s => ⟨fun hlong => ?tooLong,
    fun hfits hshort => ?tooShort, fun hfits hlen hobuf => ?tooBig, fun hfits hlen hobuf => ?decode⟩⟩
  case tooLong =>
    rw [exec_frameDecode_tooLong (State.inputTooLong_eq_true_iff.2 hlong), raise_eq]
  case tooShort =>
    rw [exec_frameDecode_short (State.inputTooLong_eq_false_iff.2 hfits) hshort, raise_eq]
  case tooBig =>
    rw [exec_frameDecode_fields (State.inputTooLong_eq_false_iff.2 hfits) (frameFields_input hlen),
      State.readBytes_length, if_pos hobuf, raise_eq]
  case decode =>
    rw [exec_frameDecode_fields (State.inputTooLong_eq_false_iff.2 hfits) (frameFields_input hlen),
      State.readBytes_length, if_neg (not_lt.2 hobuf), decodeResult_verify]
    exact exists_succeed_output_setDigest (congrArg toWord (State.readBytes_length _ _ _ _))

/-- Settles O16: the codes 1 to 4 are the tokens' codes, and no other ARG is one. -/
theorem tokenEmitWritesToken : Obligations.TokenEmitWritesToken := by
  refine ⟨selectedBy_of_ignoresSeq (i := .tokenEmit) rfl,
    fun s => ⟨fun hrange => ?range, fun tok hcode => ?emit⟩⟩
  case range =>
    rw [exec_tokenEmit_range hrange, raise_eq]
  case emit =>
    rw [exec_tokenEmit_token hcode]
    exact exists_succeed_output rfl

/-- Settles O17: the ack is one byte, the seq code. -/
theorem ackEncodeWritesOneByte : Obligations.AckEncodeWritesOneByte := by
  refine ⟨selectedBy_iff_decodeOp.2 fun seq => decodeOp_opcode (.ackEncode seq), fun seq s => ?_⟩
  rw [exec_ackEncode]
  exact exists_succeed_output rfl

/-- Settles O36: a chunk is the slice that starts at its multiple of C; it is the last one exactly when
the next multiple is not inside the payload. -/
theorem chunksSliceThePayload : Obligations.ChunksSliceThePayload := by
  intro c p hc
  refine ⟨chunks_length hc, fun k hk => chunks_getElem?_of_lt hc hk, chunks_flatten hc,
    fun k hk => ?full, fun k hk => ?last⟩
  case full =>
    have hnext := (lt_ceilDiv_iff hc).1 hk
    rw [Nat.succ_mul] at hnext
    rw [chunks_getD_length hc (by omega)]
    omega
  case last =>
    have hlast : k < ceilDiv p.length c := by omega
    have hstart := (lt_ceilDiv_iff hc).1 hlast
    have hnext : ¬(k + 1) * c < p.length := fun h => absurd ((lt_ceilDiv_iff hc).2 h) (by omega)
    rw [Nat.succ_mul] at hnext
    rw [chunks_getD_length hc hlast]
    omega

/-- Settles O37: decoding answers the one split of a message at its end, and an encoded frame is such a
split. -/
theorem frameFieldsRoundTrip : Obligations.FrameFieldsRoundTrip :=
  ⟨fun _ => frameFields_eq_none_iff, fun _ _ h => frameFields_eq_some_iff.1 h,
    fun f ch c => frameFields_append ch (digest f ch) c (digest_length f ch)⟩

/-- Settles O11: the one length test, then the count of R17. -/
theorem chunkCountIsCeiling : Obligations.ChunkCountIsCeiling := by
  refine ⟨selectedBy_of_ignoresSeq (i := .chunkCount) rfl,
    fun s => ⟨fun hlong => ?tooLong, fun hfits => ?count⟩⟩
  case tooLong =>
    rw [exec_chunkCount_tooLong (State.payloadTooLong_eq_true_iff.2 hlong), raise_eq]
  case count =>
    rw [exec_chunkCount_fits (State.payloadTooLong_eq_false_iff.2 hfits), succeed_eq, toWord]

/-- Settles O15: the one length test, then the class of the whole input. -/
theorem tokenClassifyGivesCode : Obligations.TokenClassifyGivesCode := by
  refine ⟨selectedBy_of_ignoresSeq (i := .tokenClassify) rfl,
    fun s => ⟨fun hlong => ?tooLong, fun hfits => ?classify⟩⟩
  case tooLong =>
    rw [exec_tokenClassify_tooLong (State.inputTooLong_eq_true_iff.2 hlong), raise_eq]
  case classify =>
    rw [exec_tokenClassify_fits (State.inputTooLong_eq_false_iff.2 hfits), succeed_eq, toWord, State.input]

/-- Settles O38: a message is classified by the token whose wire value it is; the lengths and the table
of R80 are read off the definitions. -/
theorem tokensRecognisedExactly : Obligations.TokensRecognisedExactly := by
  refine ⟨tokenClass_wire, fun _ _ h => tokenClass_eq_code_iff.1 h, fun _ => tokenClass_eq_zero_iff,
    fun _ => rfl, Token.wire_length_cases, fun f ch c => ?frame, rfl, rfl, rfl, rfl, rfl, rfl, rfl, rfl⟩
  case frame =>
    rw [frameBytes_length]
    exact Nat.le_add_left 10 ch.length

end Sys2Proof.Proofs
end

section
/-!
PROOFS. The sequence commands: seq codes and seq values as numbers, increment around their cycle, the
earlier-than test as a distance around it, and what SEQ_INC and SEQ_EARLIER answer.
-/

namespace Sys2Proof.Machine

open Sys2Proof

/-! ### Codes and values (R112 to R114) -/

theorem seqCode_toNat (v : Nat) : (seqCode v).toNat = v % 256 := BitVec.toNat_ofNat v 8

/-- R112: the value of a code is the number from 1 to 256 that the code is congruent to. -/
theorem seqValue_eq_iff {c : Byte} {v : Nat} :
    seqValue c = v ↔ 1 ≤ v ∧ v ≤ 256 ∧ c.toNat = v % 256 := by
  have hc : c.toNat < 256 := c.isLt
  unfold seqValue
  split_ifs with h
  · have hzero : c.toNat = 0 := congrArg BitVec.toNat h
    omega
  · have hpos : c.toNat ≠ 0 := fun h0 => h (BitVec.eq_of_toNat_eq h0)
    omega

theorem seqValue_spec (c : Byte) : 1 ≤ seqValue c ∧ seqValue c ≤ 256 ∧ c.toNat = seqValue c % 256 :=
  seqValue_eq_iff.1 rfl

theorem seqCode_seqValue (c : Byte) : seqCode (seqValue c) = c := by
  obtain ⟨_, _, hmod⟩ := seqValue_spec c
  exact BitVec.eq_of_toNat_eq ((seqCode_toNat _).trans hmod.symm)

theorem seqValue_seqCode {v : Nat} (hpos : 1 ≤ v) (hle : v ≤ 256) : seqValue (seqCode v) = v :=
  seqValue_eq_iff.2 ⟨hpos, hle, seqCode_toNat v⟩

theorem seqInc_toNat (c : Byte) : (seqInc c).toNat = (c.toNat + 1) % 256 := BitVec.toNat_add c 1

/-- R113 on values: 256 is followed by 1, never by 0. -/
theorem seqValue_seqInc (c : Byte) :
    seqValue (seqInc c) = if seqValue c = 256 then 1 else seqValue c + 1 := by
  obtain ⟨hpos, hle, hmod⟩ := seqValue_spec c
  rw [seqValue_eq_iff, seqInc_toNat, hmod]
  split_ifs <;> omega

theorem seqInc_iterate_toNat (k : Nat) (c : Byte) : (seqInc^[k] c).toNat = (c.toNat + k) % 256 := by
  induction k with
  | zero => exact (Nat.mod_eq_of_lt c.isLt).symm
  | succ k ih =>
    rw [Function.iterate_succ_apply', seqInc_toNat, ih]
    omega

/-! ### The earlier-than test (R115, R116) -/

/-- R115: `earlier` bounds the distance from `s` forward to `c` around the cycle. -/
theorem earlier_iff {window : Nat} {s c : Byte} :
    earlier window s c = true ↔
      1 ≤ (c.toNat + 256 - s.toNat) % 256 ∧ (c.toNat + 256 - s.toNat) % 256 ≤ window := by
  have hdist : (c - s).toNat = (c.toNat + 256 - s.toNat) % 256 := by
    have hs : s.toNat < 256 := s.isLt
    rw [BitVec.toNat_sub]
    omega
  simp only [earlier, hdist, Bool.and_eq_true, decide_eq_true_eq]

theorem earlier_self (window : Nat) (c : Byte) : earlier window c c = false := by
  rw [← Bool.not_eq_true, earlier_iff]
  omega

theorem earlier_seqInc {window : Nat} (h : 1 ≤ window) (s : Byte) :
    earlier window s (seqInc s) = true := by
  have hs : s.toNat < 256 := s.isLt
  rw [earlier_iff, seqInc_toNat]
  omega

/-- R116: the distances there and back sum to 256, so a window below half of it holds only one. -/
theorem earlier_asymm {window : Nat} {s c : Byte} (hw : window ≤ 127) :
    ¬(earlier window s c = true ∧ earlier window c s = true) := by
  have hs : s.toNat < 256 := s.isLt
  have hc : c.toNat < 256 := c.isLt
  rw [earlier_iff, earlier_iff]
  omega

theorem earlier_of_ne {s c : Byte} (h : s ≠ c) : earlier 255 s c = true := by
  have hs : s.toNat < 256 := s.isLt
  have hc : c.toNat < 256 := c.isLt
  have hne : s.toNat ≠ c.toNat := fun heq => h (BitVec.eq_of_toNat_eq heq)
  rw [earlier_iff]
  omega

/-! ### The commands -/

theorem seqInc_eq_ofNat (c : Byte) : seqInc c = BitVec.ofNat 8 ((c.toNat + 1) % 256) := by
  apply BitVec.eq_of_toNat_eq
  rw [seqInc_toNat, BitVec.toNat_ofNat, Nat.mod_mod]

/-- RESULT of SEQ_INC as a number: the value stands above the byte of the code (R118). -/
theorem seqIncResult_eq_ofNat (n : Byte) :
    seqIncResult n = BitVec.ofNat 32 (n.toNat + seqValue n * 2 ^ 8) := by
  have hn : n.toNat < 2 ^ 8 := n.isLt
  obtain ⟨_, hle, _⟩ := seqValue_spec n
  have hcode : (n.setWidth 32).toNat = n.toNat := BitVec.toNat_setWidth_of_le (by decide)
  have hvalue : (toWord (seqValue n) <<< 8).toNat = seqValue n <<< 8 := by
    rw [BitVec.toNat_shiftLeft, toWord_toNat_of_lt (by omega), Nat.shiftLeft_eq]
    exact Nat.mod_eq_of_lt (by omega)
  apply BitVec.eq_of_toNat_eq
  rw [seqIncResult, BitVec.toNat_or, hcode, hvalue, BitVec.toNat_ofNat, Nat.mod_eq_of_lt (by omega),
    Nat.or_comm, ← Nat.shiftLeft_add_eq_or_of_lt hn, Nat.shiftLeft_eq, Nat.add_comm]

/-- The code an argument names is its low byte; ARG[31:8] is not read (R74, R119). -/
theorem State.argSeq_toNat (s : State) : s.argSeq.toNat = s.arg.toNat % 256 := by
  rw [State.argSeq, BitVec.extractLsb'_toNat, Nat.shiftRight_zero]

theorem exec_seqInc (seq : Byte) (s : State) :
    exec (.seqInc seq) s = succeed (seqIncResult (seqInc seq)) s := rfl

theorem exec_seqEarlier (seq : Byte) (s : State) :
    exec (.seqEarlier seq) s = succeed (verdictBit (earlier s.cfg.staleWindow s.argSeq seq)) s := rfl

end Sys2Proof.Machine

namespace Sys2Proof.Proofs

open Sys2Proof Sys2Proof.Machine

/-- Settles O39: value and code are congruent mod 256, where increment adds one. -/
theorem seqCodesCycleThroughValues : Obligations.SeqCodesCycleThroughValues := by
  refine ⟨fun c => ?value, fun v hpos hle => ⟨seqCode_toNat v, seqValue_seqCode hpos hle⟩,
    fun c => ⟨seqInc_toNat c, seqValue_seqInc c⟩, fun c => ?cycle⟩
  case value =>
    obtain ⟨hpos, hle, _⟩ := seqValue_spec c
    exact ⟨seqCode_seqValue c, hpos, hle⟩
  case cycle =>
    apply BitVec.eq_of_toNat_eq
    rw [seqInc_iterate_toNat, Nat.add_mod_right]
    exact Nat.mod_eq_of_lt c.isLt

/-- Settles O40: each property is a fact about the distance that `earlier` bounds. -/
theorem earlierIsWrapAware : Obligations.EarlierIsWrapAware := by
  refine fun window s c => ⟨earlier_iff, earlier_self window c, fun hw => earlier_seqInc hw s,
    earlier_asymm, ?full⟩
  case full =>
    rintro rfl hne
    exact earlier_of_ne hne

/-- Settles O18: the next code and its value stand in separate bits of RESULT. -/
theorem seqIncGivesCodeAndValue : Obligations.SeqIncGivesCodeAndValue := by
  refine ⟨selectedBy_iff_decodeOp.2 fun seq => decodeOp_opcode (.seqInc seq), fun seq s => ?_⟩
  rw [← seqInc_eq_ofNat, exec_seqInc, seqIncResult_eq_ofNat, succeed_eq]

/-- Settles O19: the distance from ARG's low byte to SEQ is the one `earlier` bounds. -/
theorem seqEarlierGivesVerdict : Obligations.SeqEarlierGivesVerdict := by
  refine ⟨selectedBy_iff_decodeOp.2 fun seq => decodeOp_opcode (.seqEarlier seq), fun seq s => ?_⟩
  simp only [exec_seqEarlier, succeed_eq, verdictBit, earlier_iff, State.argSeq_toNat]

end Sys2Proof.Proofs
end

section
/-!
PROOFS. The sender engine (43_sender.md), row by row of R121: what SND_START opens, what each turn sends and
changes, when an engine waits, and what a step can put on SND_TX.
-/

namespace Sys2Proof.Machine

open Sys2Proof

/-! ### The events at a port (R84) -/

theorem RxSignals.event_eq_none {x : RxSignals} (h : x.kind = 0) : x.event = none := by
  simp [RxSignals.event, h]

theorem RxSignals.event_eq_msg {x : RxSignals} (h : x.kind = 1) : x.event = some (.msg x.data) := by
  simp [RxSignals.event, h]

theorem RxSignals.event_eq_timeout {x : RxSignals} (h : x.kind = 2) : x.event = some .timeout := by
  simp [RxSignals.event, h]

theorem RxSignals.event_eq_error {x : RxSignals} (h : x.kind = 3) : x.event = some .error := by
  simp [RxSignals.event, h]

section Rows

variable {s : State} {x : RxSignals} {more : List RxSignals} {m : ByteString}

/-! ### SND_START (R120) -/

theorem exec_sndStart_busy (h : s.senderActive = true) : exec .sndStart s = raise .eBusy s := if_pos h

theorem exec_sndStart_tooLong (hact : s.senderActive = false) (h : s.payloadTooLong = true) :
    exec .sndStart s = raise .eLen s := by
  simp only [exec, execSndStart, hact, h, Bool.false_eq_true, if_false, if_true]

theorem exec_sndStart_fits (hact : s.senderActive = false) (h : s.payloadTooLong = false) :
    exec .sndStart s =
      succeed (toWord (ceilDiv s.plen.toNat s.cfg.chunkSize))
        { s with
          snd :=
            { s.snd with
              state := .idle, expectedAck := 0x01, retryCount := 0, resendPending := false, off := 0,
              plen := s.plen, flen := 0, cause := .noAbort } } := by
  simp only [exec, execSndStart, hact, h, Bool.false_eq_true, if_false]

/-! ### AwaitingAck: messages, timeouts, errors (R124 to R127) -/

theorem senderStep_ack (hst : s.snd.state = .awaitingAck) (hx : s.sndRx = x :: more)
    (he : x.event = some (.msg m)) (hm : m = ackBytes s.snd.expectedAck) :
    senderStep s = sndAdvance { s with sndRx := more } := by
  rw [senderStep_read hst hx, he]
  exact if_pos (beq_iff_eq.2 hm)

/-- Any message but the expected ack makes the sender repeat the kept frame (R125). -/
theorem senderStep_other (hst : s.snd.state = .awaitingAck) (hx : s.sndRx = x :: more)
    (he : x.event = some (.msg m)) (hm : m ≠ ackBytes s.snd.expectedAck) :
    senderStep s =
      { s with
        sndRx := more, snd := { s.snd with resendPending := true }
        sndTx := s.sndTx ++ [s.frameInFlight] } := by
  have resend : senderStep s = sndResend { s with sndRx := more } := by
    rw [senderStep_read hst hx, he]
    exact if_neg fun h => hm (beq_iff_eq.1 h)
  have kept : ({ s with sndRx := more } : State).frameInFlight = s.frameInFlight :=
    State.frameInFlight_congr rfl rfl rfl
  rw [resend, sndResend_eq, kept]

/-- A timeout that does not reach the limit counts and repeats the kept frame (R126). -/
theorem senderStep_timeout_resend (hst : s.snd.state = .awaitingAck) (hx : s.sndRx = x :: more)
    (he : x.event = some .timeout) (hn : (s.snd.retryCount + 1).toNat ≠ s.cfg.retryLimit) :
    senderStep s =
      { s with
        sndRx := more
        snd := { s.snd with retryCount := s.snd.retryCount + 1, resendPending := true }
        sndTx := s.sndTx ++ [s.frameInFlight] } := by
  let counted : State :=
    { s with sndRx := more, snd := { s.snd with retryCount := s.snd.retryCount + 1 } }
  have resend : senderStep s = sndResend counted := by
    rw [senderStep_read hst hx, he]
    exact if_neg hn
  have kept : counted.frameInFlight = s.frameInFlight := State.frameInFlight_congr rfl rfl rfl
  rw [resend, sndResend_eq, kept]

/-- The timeout that reaches the limit aborts and sends nothing (R126). -/
theorem senderStep_timeout_abort (hst : s.snd.state = .awaitingAck) (hx : s.sndRx = x :: more)
    (he : x.event = some .timeout) (hn : (s.snd.retryCount + 1).toNat = s.cfg.retryLimit) :
    senderStep s =
      { s with
        sndRx := more
        snd := { s.snd with
          retryCount := s.snd.retryCount + 1, state := .aborted, cause := .retryExhausted } } := by
  rw [senderStep_read hst hx, he]
  exact if_pos hn

theorem senderStep_error (hst : s.snd.state = .awaitingAck) (hx : s.sndRx = x :: more)
    (he : x.event = some .error) :
    senderStep s =
      { s with sndRx := more, snd := { s.snd with state := .aborted, cause := .transportError } } := by
  rw [senderStep_read hst hx, he]
  rfl

theorem senderStep_noEvent (hst : s.snd.state = .awaitingAck) (hx : s.sndRx = x :: more)
    (he : x.event = none) : senderStep s = { s with sndRx := more } := by
  rw [senderStep_read hst hx, he]
  rfl

theorem receiverStep_noEvent (hst : s.rcv.state = .listening) (hx : s.rcvRx = x :: more)
    (he : x.event = none) : receiverStep s = { s with rcvRx := more } := by
  rw [receiverStep_read hst hx, he]
  rfl

/-! ### What is put on SND_TX -/

/-- From the number of whole chunks, the seq code of the next one (R112, R130). -/
theorem seqCode_ceilDiv_of_boundary {a c : Nat} (hc : 1 ≤ c) (h : a % c = 0) :
    seqCode (ceilDiv a c + 1) = BitVec.ofNat 8 ((a / c + 1) % 256) := by
  obtain ⟨k, rfl⟩ := Nat.dvd_of_mod_eq_zero h
  have hceil : ceilDiv (c * k) c = k := by
    rw [ceilDiv, Nat.add_sub_assoc hc, Nat.mul_add_div hc, Nat.div_eq_of_lt (by omega), Nat.add_zero]
  rw [hceil, Nat.mul_div_cancel_left k hc]
  apply BitVec.eq_of_toNat_eq
  rw [seqCode_toNat, BitVec.toNat_ofNat, Nat.mod_mod]

/-- The chunk that the sender is about to send or has in flight starts at a multiple of C, and its number
is what the expected code counts (R130). -/
theorem State.sessionOk_chunk (hl : s.cfg.legal = true) (h : s.sessionOk)
    (hlt : s.snd.off.toNat < s.snd.plen.toNat) :
    s.snd.off.toNat % s.cfg.chunkSize = 0 ∧
      s.snd.expectedAck = BitVec.ofNat 8 ((s.snd.off.toNat / s.cfg.chunkSize + 1) % 256) := by
  obtain ⟨-, -, hboundary, -, hack⟩ := h
  have hstart : s.snd.off.toNat % s.cfg.chunkSize = 0 :=
    hboundary.resolve_right fun e => absurd hlt (by rw [e]; exact lt_irrefl _)
  exact ⟨hstart, hack.trans (seqCode_ceilDiv_of_boundary (Params.chunkSize_pos hl) hstart)⟩

/-- A read of SND_RX sends nothing, or the kept frame once. -/
theorem sndEvent_sndTx_cases (e : Option RxEvent) (s : State) :
    (sndEvent e s).sndTx = s.sndTx ∨ (sndEvent e s).sndTx = s.sndTx ++ [s.frameInFlight] := by
  match e with
  | none => exact .inl rfl
  | some (.msg m) =>
    show (sndMessage m s).sndTx = _ ∨ (sndMessage m s).sndTx = _
    unfold sndMessage
    split
    · exact .inl rfl
    · exact .inr rfl
  | some .timeout =>
    show (sndTimeout s).sndTx = _ ∨ (sndTimeout s).sndTx = _
    unfold sndTimeout
    dsimp only
    split
    · exact .inl rfl
    · refine .inr (congrArg (fun f => s.sndTx ++ [f]) ?_)
      exact State.frameInFlight_congr rfl rfl rfl
  | some .error => exact .inl rfl

/-- A good sender's turn sends nothing, or DONE at the end, or the frame of the chunk at `snd.off`, be it
just built (R122) or repeated (R125, R126). -/
theorem senderStep_sndTx_cases (hl : s.cfg.legal = true) (hok : s.senderOk) :
    (senderStep s).sndTx = s.sndTx ∨
    ((senderStep s).sndTx = s.sndTx ++ [Token.wire .done] ∧ s.snd.state = .idle ∧
      s.snd.off = s.snd.plen ∧ (senderStep s).snd.state = .done) ∨
    (s.sessionOk ∧ s.snd.off.toNat < s.snd.plen.toNat ∧
      (senderStep s).sndTx =
        s.sndTx ++ [frameBytes s.cfg.digestFormat s.chunkAtOff s.snd.expectedAck]) := by
  cases hst : s.snd.state with
  | off => exact .inl (by rw [senderStep_off hst])
  | done => exact .inl (by rw [senderStep_done hst])
  | aborted => exact .inl (by rw [senderStep_aborted hst])
  | idle =>
    obtain ⟨hsession, -, -⟩ := (State.senderOk_idle hst).1 hok
    rcases lt_trichotomy s.snd.off.toNat s.snd.plen.toNat with hlt | heq | hgt
    · rw [senderStep_build hst hlt, sndBuild_eq s (State.chunkLen_add_ten_lt hl)]
      exact .inr (.inr ⟨hsession, hlt, rfl⟩)
    · have heq := BitVec.eq_of_toNat_eq heq
      rw [senderStep_finish hst heq]
      exact .inr (.inl ⟨rfl, rfl, heq, rfl⟩)
    · exact .inl (by rw [senderStep_past hst hgt])
  | awaitingAck =>
    obtain ⟨hsession, hlt, -, hkept, -⟩ := (State.senderOk_awaitingAck hst).1 hok
    cases hx : s.sndRx with
    | nil => exact .inl (by rw [senderStep_wait hst hx])
    | cons x more =>
      have kept : ({ s with sndRx := more } : State).frameInFlight = s.frameInFlight :=
        State.frameInFlight_congr rfl rfl rfl
      rw [senderStep_read hst hx, ← hkept, ← kept]
      exact (sndEvent_sndTx_cases x.event { s with sndRx := more }).imp_right fun h =>
        .inr ⟨hsession, hlt, h⟩

/-- No host access sends on SND_TX, not even a command. -/
theorem hostAccess_sndTx {t : State} {acc : HostAccess} (h : hostAccess acc s = .next t) :
    t.sndTx = s.sndTx := by
  rcases hostAccess_cases h with rfl | ⟨v, rfl⟩ | ⟨v, rfl⟩ | ⟨v, rfl⟩ | ⟨-, v, rfl⟩ | ⟨e, rfl⟩ |
    ⟨w, i, -, -, hexec⟩ | ⟨a, v, -, rfl⟩ | ⟨-, a, v, -, rfl⟩
  case inr.inr.inr.inr.inr.inr.inl =>
    rcases exec_cases hexec with ⟨e, rfl⟩ | ⟨r, g, -, rfl⟩ | ⟨r, g, v, -, -, rfl⟩ | ⟨-, -, -, r, rfl⟩ |
      ⟨-, -, rfl⟩ <;> rfl
  all_goals rfl

end Rows

end Sys2Proof.Machine

namespace Sys2Proof.Proofs

open Sys2Proof Sys2Proof.Machine

/-- Settles O23: the kept frame is written from byte 0, so it is what is sent and what is read back. -/
theorem senderBuildsAndSendsFrame : Obligations.SenderBuildsAndSendsFrame := by
  intro s hl hst hlt n ch f
  obtain ⟨hpos, hle, -, -⟩ := State.chunkLen_bounds hl hlt
  refine ⟨Memory.writeBytes s.snd.frame 0 f, ?turn, hpos, hle, fun a => ?bytes⟩
  case turn =>
    rw [senderStep_build hst hlt, sndBuild_eq s (State.chunkLen_add_ten_lt hl)]
    rfl
  case bytes =>
    refine Eq.trans (State.byteAt_of_writeBytes (s := s) (x := 0) (v := f) ?_ ?_ a) ?_
    · rfl
    · rfl
    by_cases ha : a < f.length <;> simp [ha, List.getD]

/-- Settles O54: the host and the receiver send nothing on SND_TX, and what the sender's turn sends is
tagged with the code that counts its chunk. -/
theorem sentMessagesAreFramesInOrder : Obligations.SentMessagesAreFramesInOrder := by
  intro s t hinv hstep hreset
  obtain ⟨hl, ⟨-, rfl⟩ | ⟨rest, ⟨acc, -, hacc⟩ | ⟨-, rfl⟩ | ⟨-, rfl⟩ | ⟨hs, -⟩⟩⟩ := step_cases hstep
  · exact .inl rfl
  · exact .inl (hostAccess_sndTx (s := { s with sched := rest }) hacc)
  · obtain ⟨-, -, -, hsender, -⟩ := hinv
    let u : State := { s with sched := rest }
    have hok : u.senderOk := State.senderOk_congr hsender rfl rfl rfl rfl
    refine (senderStep_sndTx_cases (s := u) hl hok).imp_right (Or.imp_right ?_)
    rintro ⟨hsession, hlt, hsent⟩
    obtain ⟨hstart, hack⟩ := State.sessionOk_chunk (s := u) hl hsession hlt
    have hchunk : u.chunkAtOff = s.chunkAtOff := State.chunkAtOff_congr rfl rfl rfl rfl rfl
    refine ⟨hlt, hstart, hsent.trans ?_⟩
    rw [hack, hchunk]
    rfl
  · left
    rw [receiverStep_eq_withReceiver]
    rfl
  · exact absurd hs (hreset rest)

/-- Settles O20: the two tests in order, then the start values. -/
theorem sndStartOpensSession : Obligations.SndStartOpensSession := by
  refine ⟨selectedBy_of_ignoresSeq (i := .sndStart) rfl, fun s =>
    ⟨fun hactive => ?busy, fun hended => ⟨fun hlong => ?tooLong, fun hfits => ?start⟩⟩⟩
  case busy =>
    rw [exec_sndStart_busy (State.senderActive_iff.2 hactive), raise_eq]
  case tooLong =>
    rw [exec_sndStart_tooLong (State.senderInactive_iff.2 hended)
      (State.payloadTooLong_eq_true_iff.2 hlong), raise_eq]
  case start =>
    rw [exec_sndStart_fits (State.senderInactive_iff.2 hended)
      (State.payloadTooLong_eq_false_iff.2 hfits), succeed_eq, toWord]

/-- Settles O24: the turn is `sndFinish`, and the bytes of DONE are its wire value. -/
theorem senderSendsDoneAtEnd : Obligations.SenderSendsDoneAtEnd := fun _ hst heq =>
  senderStep_finish hst heq

/-- Settles O25: the two answers to a message, by whether it is the expected ack. -/
theorem senderAdvancesOrRetransmits : Obligations.SenderAdvancesOrRetransmits := by
  intro s x more m hst hx he
  refine ⟨fun hm => ?advance, fun hm => senderStep_other hst hx he hm⟩
  case advance =>
    rw [senderStep_ack hst hx he hm, ← seqInc_eq_ofNat]
    rfl

/-- Settles O26: below its limit the 8-bit count does not wrap, so the limit test reads the true count. -/
theorem senderTimeoutsAndAborts : Obligations.SenderTimeoutsAndAborts := by
  intro s x more hst hx hlt hlimit
  have hsucc := count_succ_toNat hlt hlimit
  exact ⟨fun he hn => senderStep_timeout_resend hst hx he (hsucc.trans_ne hn),
    fun he hn => senderStep_timeout_abort hst hx he (hsucc.trans hn), senderStep_error hst hx, rfl, rfl⟩

/-- Settles O32: the turns that select no row, and the table of R84. -/
theorem enginesWaitWithoutEvent : Obligations.EnginesWaitWithoutEvent := by
  refine fun s => ⟨?stopped, senderStep_wait, fun x more hst hx hk => ?senderSample,
    receiverStep_stopped, receiverStep_wait, fun x more hst hx hk => ?receiverSample,
    fun x => ⟨RxSignals.event_eq_none, RxSignals.event_eq_msg, RxSignals.event_eq_timeout,
      RxSignals.event_eq_error⟩,
    fun m => ⟨rfl, rfl⟩, rfl, rfl⟩
  case stopped =>
    rintro (hst | hst | hst)
    · exact senderStep_off hst
    · exact senderStep_done hst
    · exact senderStep_aborted hst
  case senderSample => exact senderStep_noEvent hst hx (RxSignals.event_eq_none hk)
  case receiverSample => exact receiverStep_noEvent hst hx (RxSignals.event_eq_none hk)

end Sys2Proof.Proofs
end

section
/-!
PROOFS. Whole sender sessions: a wait that always ends in a timeout (R129), and a fault-free session, one
exchange at a time (R124, R138).
-/

namespace Sys2Proof.Machine

open Sys2Proof

/-! ### Runs -/

/-- `Host.Core.run` of this machine, on its own state type. -/
def State.run (s : State) (k : Nat) : Result := Host.Core.run Sys2Proof.core k s

/-- A run goes on from the state after its first step. -/
theorem core_run_succ {M : Host.Core} {s t : M.State} (h : M.step s = .next t) (k : Nat) :
    M.run (k + 1) s = M.run k t := by
  simp only [Host.Core.run, h]

section Turns

variable {s : State} {rest : List Action}

/-- An engine's turn does not look at the schedule, so it may be taken before its action leaves it. -/
theorem State.run_senderStep (hl : s.cfg.legal = true) (hs : s.sched = .senderStep :: rest) (k : Nat) :
    s.run (k + 1) = ({ senderStep s with sched := rest } : State).run k := by
  have agree : SenderAgree s { s with sched := rest } := ⟨rfl, rfl, rfl, rfl, rfl, rfl⟩
  have turn : senderStep { s with sched := rest } = { senderStep s with sched := rest } := by
    rw [agree.senderStep, senderStep_eq_withSender s]
    rfl
  rw [← turn]
  exact core_run_succ (M := Sys2Proof.core) (step_cons hl hs) k

theorem State.run_receiverStep (hl : s.cfg.legal = true) (hs : s.sched = .receiverStep :: rest) (k : Nat) :
    s.run (k + 1) = ({ receiverStep s with sched := rest } : State).run k := by
  have agree : ReceiverAgree s { s with sched := rest } := ⟨rfl, rfl, rfl, rfl, rfl⟩
  have turn : receiverStep { s with sched := rest } = { receiverStep s with sched := rest } := by
    rw [agree.receiverStep, receiverStep_eq_withReceiver s]
    rfl
  rw [← turn]
  exact core_run_succ (M := Sys2Proof.core) (step_cons hl hs) k

/-- `s` after its sender built and sent the next frame (R122), with `rest` still to come. -/
def State.sent (s : State) (rest : List Action) : State :=
  { s with
    sched := rest, snd := s.builtSender
    sndTx := s.sndTx ++ [frameBytes s.cfg.digestFormat s.chunkAtOff s.snd.expectedAck] }

theorem State.run_sent (hl : s.cfg.legal = true) (hst : s.snd.state = .idle)
    (hlt : s.snd.off.toNat < s.snd.plen.toNat) (hs : s.sched = .senderStep :: rest) (k : Nat) :
    s.run (k + 1) = (s.sent rest).run k := by
  rw [State.run_senderStep hl hs, senderStep_build hst hlt, sndBuild_eq s (State.chunkLen_add_ten_lt hl)]
  rfl

/-- What is kept is what was sent (R39). -/
theorem State.sent_frameInFlight (hl : s.cfg.legal = true) :
    (s.sent rest).frameInFlight = frameBytes s.cfg.digestFormat s.chunkAtOff s.snd.expectedAck := by
  rw [← sndBuild_frameInFlight hl]
  exact State.frameInFlight_congr rfl rfl rfl

end Turns

/-! ### Timeouts up to the limit (R126, R129) -/

section Timeouts

/-- `s` after one more timeout below the limit, with `more` and `rest` still to come. -/
def State.resent (s : State) (more : List RxSignals) (rest : List Action) : State :=
  { s with
    sched := rest, sndRx := more
    snd := { s.snd with retryCount := s.snd.retryCount + 1, resendPending := true }
    sndTx := s.sndTx ++ [s.frameInFlight] }

/-- `t` is `s` after the sender sent `frames` and gave up, with `more` and `rest` still to come. -/
structure GaveUp (s t : State) (frames : List ByteString) (more : List RxSignals) (rest : List Action) :
    Prop where
  state : t.snd.state = .aborted
  cause : t.snd.cause = .retryExhausted
  count : t.snd.retryCount.toNat = s.cfg.retryLimit
  off : t.snd.off = s.snd.off
  sndTx : t.sndTx = s.sndTx ++ frames
  sndRx : t.sndRx = more
  sched : t.sched = rest
  rcv : t.rcv = s.rcv

variable {s t : State} {more more' : List RxSignals} {rest rest' : List Action}

theorem State.resent_frameInFlight : (s.resent more rest).frameInFlight = s.frameInFlight :=
  State.frameInFlight_congr rfl rfl rfl

theorem State.run_resent (hl : s.cfg.legal = true) (hst : s.snd.state = .awaitingAck)
    (hx : s.sndRx = RxEvent.timeout.signals :: more) (hs : s.sched = .senderStep :: rest)
    (hn : (s.snd.retryCount + 1).toNat ≠ s.cfg.retryLimit) (k : Nat) :
    s.run (k + 1) = (s.resent more rest).run k := by
  rw [State.run_senderStep hl hs, senderStep_timeout_resend hst hx (RxEvent.event_signals _) hn]
  rfl

theorem GaveUp.of_resent {frames : List ByteString} (h : GaveUp (s.resent more' rest') t frames more rest) :
    GaveUp s t (s.frameInFlight :: frames) more rest :=
  ⟨h.state, h.cause, h.count, h.off, h.sndTx.trans (List.append_assoc _ _ _), h.sndRx, h.sched, h.rcv⟩

/-- A sender that is `k + 1` timeouts away from its limit repeats the kept frame `k` times and gives up. -/
theorem run_timeouts (k : Nat) (hl : s.cfg.legal = true) (hst : s.snd.state = .awaitingAck)
    (hcount : s.snd.retryCount.toNat + (k + 1) = s.cfg.retryLimit)
    (hx : s.sndRx = List.replicate (k + 1) RxEvent.timeout.signals ++ more)
    (hs : s.sched = List.replicate (k + 1) .senderStep ++ rest) :
    ∃ t, s.run (k + 1) = .next t ∧ GaveUp s t (List.replicate k s.frameInFlight) more rest := by
  induction k generalizing s with
  | zero =>
    have hlimit : (s.snd.retryCount + 1).toNat = s.cfg.retryLimit :=
      (count_succ_toNat (by omega) (Params.retryLimit_bounds hl).2).trans hcount
    refine ⟨_, State.run_senderStep (rest := rest) hl hs 0, ?_⟩
    rw [senderStep_timeout_abort (more := more) hst hx (RxEvent.event_signals _) hlimit]
    exact ⟨rfl, rfl, hlimit, rfl, (List.append_nil _).symm, rfl, rfl, rfl⟩
  | succ k ih =>
    have hsucc : (s.snd.retryCount + 1).toNat = s.snd.retryCount.toNat + 1 :=
      count_succ_toNat (by omega) (Params.retryLimit_bounds hl).2
    have hrest : (s.snd.retryCount + 1).toNat + (k + 1) = s.cfg.retryLimit := by omega
    rw [State.run_resent hl hst hx hs (by omega)]
    obtain ⟨t, hrun, hend⟩ := ih (s := s.resent _ _) hl hst hrest rfl rfl
    rw [State.resent_frameInFlight] at hend
    exact ⟨t, hrun, hend.of_resent⟩

end Timeouts

/-! ### Chunks along a session (R97) -/

/-- A full slice, or a short one at the end, is the first chunk; the rest is cut by itself. -/
theorem chunks_append {c : Nat} {a b : ByteString} (hpos : 1 ≤ a.length) (hle : a.length ≤ c)
    (hfull : a.length = c ∨ b = []) : chunks c (a ++ b) = a :: chunks c b := by
  have hc : 1 ≤ c := hpos.trans hle
  apply List.ext_getElem?
  intro k
  cases k with
  | zero =>
    rw [chunks_getElem? hc, if_pos (by simp; omega)]
    rcases hfull with rfl | rfl <;> simp [hle]
  | succ k =>
    rw [List.getElem?_cons_succ, chunks_getElem? hc, chunks_getElem? hc, Nat.succ_mul]
    rcases hfull with rfl | rfl
    · simp [Nat.add_comm _ a.length, List.drop_length_add_append]
    · rw [if_neg (by simp; omega), if_neg (by simp)]

section Payload

variable {s : State}

/-- What the sender has still to send: PMEM from `snd.off` to the end of the payload. -/
def State.payloadLeft (s : State) : ByteString :=
  s.readBytes .pmem s.snd.off.toNat (s.snd.plen.toNat - s.snd.off.toNat)

/-- The chunk at `snd.off` is the first of what is left. -/
theorem State.chunks_payloadLeft (hl : s.cfg.legal = true) (hlt : s.snd.off.toNat < s.snd.plen.toNat) :
    chunks s.cfg.chunkSize s.payloadLeft =
      s.chunkAtOff :: chunks s.cfg.chunkSize
        (s.readBytes .pmem (s.snd.off.toNat + s.chunkLen)
          (s.snd.plen.toNat - (s.snd.off.toNat + s.chunkLen))) := by
  obtain ⟨hpos, hle, hend, hlast⟩ := State.chunkLen_bounds hl hlt
  have hlen : s.chunkAtOff.length = s.chunkLen := State.readBytes_length _ _ _ _
  have hsplit : s.snd.plen.toNat - s.snd.off.toNat =
      s.chunkLen + (s.snd.plen.toNat - (s.snd.off.toNat + s.chunkLen)) := by omega
  rw [State.payloadLeft, hsplit, State.readBytes_append]
  refine chunks_append (hpos.trans_eq hlen.symm) (hlen.trans_le hle) (hlast.imp hlen.trans fun hshort => ?_)
  rw [hshort, Nat.sub_self, State.readBytes]

theorem State.chunks_payloadLeft_end (h : s.snd.off = s.snd.plen) :
    chunks s.cfg.chunkSize s.payloadLeft = [] := by
  rw [State.payloadLeft, h, Nat.sub_self]
  rfl

end Payload

/-! ### The turns of a fault-free session -/

section FaultFree

variable {s : State} {p : ByteString} {more : List RxSignals} {rest : List Action}

/-- `s` after its receiver delivered and acknowledged the payload `p` of the expected frame (R138), with
`more` and `rest` still to come. -/
def State.accepted (s : State) (p : ByteString) (more : List RxSignals) (rest : List Action) : State :=
  { s with
    sched := rest, rcvRx := more
    rcv := { s.rcv with
      delivered := true, dcount := s.rcv.dcount + toWord p.length,
      expectedSeq := seqInc s.rcv.expectedSeq, timeoutCount := 0 }
    rcvTx := s.rcvTx ++ [ackBytes s.rcv.expectedSeq]
    dlv := s.dlv ++ [p] }

/-- `s` after its sender read the ack of the frame in flight (R124). -/
def State.advanced (s : State) (more : List RxSignals) (rest : List Action) : State :=
  sndAdvance { s with sched := rest, sndRx := more }

/-- `s` after its sender sent DONE (R123). -/
def State.finished (s : State) (rest : List Action) : State := sndFinish { s with sched := rest }

/-- `s` after its receiver read DONE (R136). -/
def State.closed (s : State) (more : List RxSignals) (rest : List Action) : State :=
  rcvDone (rcvBegin { s with sched := rest, rcvRx := more })

theorem verify_digest (f : DigestFormat) (p : ByteString) : verify f p (digest f p) = true :=
  beq_self_eq_true (digest f p)

/-- Accepting a payload that was not delivered yet (R138). -/
theorem rcvAccept_eq (p : ByteString) (h : s.rcv.delivered = false) :
    rcvAccept p s =
      { s with
        rcv := { s.rcv with
          delivered := true, dcount := s.rcv.dcount + toWord p.length,
          expectedSeq := seqInc s.rcv.expectedSeq, timeoutCount := 0 }
        rcvTx := s.rcvTx ++ [ackBytes s.rcv.expectedSeq]
        dlv := s.dlv ++ [p] } := by
  simp only [rcvAccept, h, Bool.false_eq_true, if_false]
  rfl

/-- The expected frame with a payload that TEXT_OK accepts passes every test of R134. -/
theorem rcvMessage_expected (hlen : p.length + 10 ≤ s.cfg.rxMsgMax)
    (htext : textOk s.cfg.textCheck p = true) :
    rcvMessage (frameBytes s.cfg.digestFormat p s.rcv.expectedSeq) s = rcvAccept p s := by
  have answer := rcvMessage_frame s p (digest s.cfg.digestFormat p) s.rcv.expectedSeq (digest_length _ _) hlen
  rw [frameBytes, answer, verify_digest, htext]
  exact (if_neg (by decide)).trans ((if_pos rfl).trans (if_pos rfl))

theorem State.run_accepted (hl : s.cfg.legal = true) (hst : s.rcv.state = .listening)
    (hx : s.rcvRx = (RxEvent.msg (frameBytes s.cfg.digestFormat p s.rcv.expectedSeq)).signals :: more)
    (hlen : p.length + 10 ≤ s.cfg.rxMsgMax) (htext : textOk s.cfg.textCheck p = true)
    (hs : s.sched = .receiverStep :: rest) (k : Nat) :
    s.run (k + 1) = (s.accepted p more rest).run k := by
  have taken : receiverStep s = rcvAccept p (rcvBegin { s with rcvRx := more }) := by
    rw [receiverStep_read hst hx, RxEvent.event_signals]
    exact rcvMessage_expected (s := rcvBegin { s with rcvRx := more }) hlen htext
  rw [State.run_receiverStep hl hs, taken, rcvAccept_eq p rfl]
  rfl

theorem State.run_advanced (hl : s.cfg.legal = true) (hst : s.snd.state = .awaitingAck)
    (hx : s.sndRx = (RxEvent.msg (ackBytes s.snd.expectedAck)).signals :: more)
    (hs : s.sched = .senderStep :: rest) (k : Nat) : s.run (k + 1) = (s.advanced more rest).run k := by
  rw [State.run_senderStep hl hs, senderStep_ack hst hx (RxEvent.event_signals _) rfl]
  rfl

theorem State.run_finished (hl : s.cfg.legal = true) (hst : s.snd.state = .idle)
    (heq : s.snd.off = s.snd.plen) (hs : s.sched = .senderStep :: rest) (k : Nat) :
    s.run (k + 1) = (s.finished rest).run k := by
  rw [State.run_senderStep hl hs, senderStep_finish hst heq]
  rfl

theorem State.run_closed (hl : s.cfg.legal = true) (hst : s.rcv.state = .listening)
    (hx : s.rcvRx = (RxEvent.msg (Token.wire .done)).signals :: more)
    (hs : s.sched = .receiverStep :: rest) (k : Nat) : s.run (k + 1) = (s.closed more rest).run k := by
  rw [State.run_receiverStep hl hs, receiverStep_read hst hx]
  rfl

end FaultFree

/-! ### One exchange, and all of them -/

section Exchange

/-- What RCV_RX presents while the chunks `chs` arrive, tagged from `c` on, then DONE and `more`. -/
def framesRx (f : DigestFormat) (c : Byte) (chs : List ByteString) (more : List RxSignals) :
    List RxSignals :=
  (sessionFrames f c chs ++ [Token.wire .done]).map (fun m => (RxEvent.msg m).signals) ++ more

/-- What SND_RX presents while `n` acks arrive, from code `c` on, then `more`. -/
def acksRx (c : Byte) (n : Nat) (more : List RxSignals) : List RxSignals :=
  (sessionAcks c n).map (fun m => (RxEvent.msg m).signals) ++ more

/-- `s` after its next frame was sent, delivered and acknowledged, with the frames and acks of the chunks
`chs` and the turns of their exchanges still to come. -/
def State.exchanged (s : State) (chs : List ByteString) (more more' : List RxSignals)
    (rest : List Action) : State :=
  let turns := sessionTurns chs.length ++ rest
  let sent := s.sent (.receiverStep :: .senderStep :: turns)
  let answered := sent.accepted s.chunkAtOff
    (framesRx s.cfg.digestFormat (seqInc s.snd.expectedAck) chs more) (.senderStep :: turns)
  answered.advanced (acksRx (seqInc s.snd.expectedAck) chs.length more') turns

/-- Between two exchanges of a fault-free session, with the chunks `chs` still to go: what both ports
will present and whose turns follow. -/
structure SessionAt (s : State) (chs : List ByteString) (more more' : List RxSignals)
    (rest : List Action) : Prop where
  legal : s.cfg.legal = true
  fits : s.cfg.chunkSize + 10 ≤ s.cfg.rxMsgMax
  idle : s.snd.state = .idle
  inPayload : s.snd.off.toNat ≤ s.snd.plen.toNat
  listening : s.rcv.state = .listening
  inStep : s.rcv.expectedSeq = s.snd.expectedAck
  chunks : chunks s.cfg.chunkSize s.payloadLeft = chs
  text : ∀ ch ∈ chs, textOk s.cfg.textCheck ch = true
  rcvRx : s.rcvRx = framesRx s.cfg.digestFormat s.snd.expectedAck chs more
  sndRx : s.sndRx = acksRx s.snd.expectedAck chs.length more'
  sched : s.sched = sessionTurns chs.length ++ rest

/-- `t` is `s` at the end of its session: the chunks `chs` delivered, everything foreseen used up. -/
structure SessionEnd (s t : State) (chs : List ByteString) (more more' : List RxSignals)
    (rest : List Action) : Prop where
  sndState : t.snd.state = .done
  rcvState : t.rcv.state = .done
  off : t.snd.off = s.snd.plen
  sndTx : t.sndTx =
    s.sndTx ++ (sessionFrames s.cfg.digestFormat s.snd.expectedAck chs ++ [Token.wire .done])
  rcvTx : t.rcvTx = s.rcvTx ++ sessionAcks s.snd.expectedAck chs.length
  dlv : t.dlv = s.dlv ++ chs
  rcvRx : t.rcvRx = more
  sndRx : t.sndRx = more'
  sched : t.sched = rest

variable {s t : State} {ch : ByteString} {chs : List ByteString} {more more' : List RxSignals}
  {rest : List Action}

/-- With no chunk to go the sender stands at the end of the payload. -/
theorem SessionAt.off_eq (h : SessionAt s [] more more' rest) : s.snd.off = s.snd.plen := by
  refine BitVec.eq_of_toNat_eq (le_antisymm h.inPayload (not_lt.1 fun hlt => ?_))
  have hnil := h.chunks
  rw [State.chunks_payloadLeft h.legal hlt] at hnil
  exact List.cons_ne_nil _ _ hnil

theorem SessionAt.off_lt (h : SessionAt s (ch :: chs) more more' rest) :
    s.snd.off.toNat < s.snd.plen.toNat := by
  refine lt_of_le_of_ne h.inPayload fun heq => ?_
  have hcons := h.chunks
  rw [State.chunks_payloadLeft_end (BitVec.eq_of_toNat_eq heq)] at hcons
  exact List.cons_ne_nil _ _ hcons.symm

/-- The next chunk to go is the one at `snd.off`, and the others are those after it. -/
theorem SessionAt.chunks_cons (h : SessionAt s (ch :: chs) more more' rest) :
    ch = s.chunkAtOff ∧
      chs = Machine.chunks s.cfg.chunkSize
        (s.readBytes .pmem (s.snd.off.toNat + s.chunkLen)
          (s.snd.plen.toNat - (s.snd.off.toNat + s.chunkLen))) :=
  List.cons.inj (h.chunks.symm.trans (State.chunks_payloadLeft h.legal h.off_lt))

/-- `snd.off` moves by the length of the chunk, which the frame's length holds (R124). -/
theorem State.exchanged_off_toNat (hl : s.cfg.legal = true) (hlt : s.snd.off.toNat < s.snd.plen.toNat) :
    (s.exchanged chs more more' rest).snd.off.toNat = s.snd.off.toNat + s.chunkLen := by
  obtain ⟨-, -, hend, -⟩ := State.chunkLen_bounds hl hlt
  have hflen := toWord_toNat_of_lt (State.chunkLen_add_ten_lt hl)
  show (s.snd.off + (toWord (s.chunkLen + 10) - 10)).toNat = _
  bv_omega

theorem State.exchanged_payloadLeft (hl : s.cfg.legal = true)
    (hlt : s.snd.off.toNat < s.snd.plen.toNat) :
    (s.exchanged chs more more' rest).payloadLeft =
      s.readBytes .pmem (s.snd.off.toNat + s.chunkLen)
        (s.snd.plen.toNat - (s.snd.off.toNat + s.chunkLen)) := by
  rw [State.payloadLeft, State.exchanged_off_toNat hl hlt]
  exact State.readBytes_congr fun _ _ => State.byteAt_congr rfl rfl _

/-- The three turns of an exchange: build and send (R122), deliver and acknowledge (R138), advance (R124). -/
theorem SessionAt.run_exchange (h : SessionAt s (ch :: chs) more more' rest) (k : Nat) :
    s.run (k + 3) = (s.exchanged chs more more' rest).run k := by
  obtain ⟨rfl, -⟩ := h.chunks_cons
  obtain ⟨-, hle, -, -⟩ := State.chunkLen_bounds h.legal h.off_lt
  have hchunk : s.chunkAtOff.length = s.chunkLen := State.readBytes_length _ _ _ _
  have hlen : s.chunkAtOff.length + 10 ≤ s.cfg.rxMsgMax := by
    have := h.fits
    omega
  have htext := h.text _ (List.mem_cons_self ..)
  let sent := s.sent (.receiverStep :: .senderStep :: (sessionTurns chs.length ++ rest))
  have hframe : sent.rcvRx =
      (RxEvent.msg (frameBytes sent.cfg.digestFormat s.chunkAtOff sent.rcv.expectedSeq)).signals ::
        framesRx s.cfg.digestFormat (seqInc s.snd.expectedAck) chs more :=
    h.rcvRx.trans (by rw [← h.inStep]; rfl)
  calc s.run (k + 3)
    _ = sent.run (k + 2) := State.run_sent h.legal h.idle h.off_lt h.sched _
    _ = (sent.accepted _ _ (.senderStep :: (sessionTurns chs.length ++ rest))).run (k + 1) :=
      State.run_accepted (s := sent) h.legal h.listening hframe hlen htext rfl _
    _ = (s.exchanged chs more more' rest).run k :=
      State.run_advanced (s := sent.accepted _ _ _) h.legal rfl h.sndRx rfl k

theorem SessionAt.exchanged (h : SessionAt s (ch :: chs) more more' rest) :
    SessionAt (s.exchanged chs more more' rest) chs more more' rest := by
  obtain ⟨rfl, hchs⟩ := h.chunks_cons
  obtain ⟨-, -, hend, -⟩ := State.chunkLen_bounds h.legal h.off_lt
  refine
    { legal := h.legal, fits := h.fits, idle := rfl, listening := h.listening
      inPayload := (State.exchanged_off_toNat h.legal h.off_lt).trans_le hend
      inStep := congrArg seqInc h.inStep
      chunks := ?_
      text := fun c hc => h.text c (List.mem_cons_of_mem _ hc)
      rcvRx := rfl, sndRx := rfl, sched := rfl }
  rw [State.exchanged_payloadLeft h.legal h.off_lt]
  exact hchs.symm

theorem SessionEnd.of_exchanged (h : SessionAt s (ch :: chs) more more' rest)
    (hend : SessionEnd (s.exchanged chs more more' rest) t chs more more' rest) :
    SessionEnd s t (ch :: chs) more more' rest := by
  obtain ⟨rfl, -⟩ := h.chunks_cons
  have acked : (s.exchanged chs more more' rest).rcvTx = s.rcvTx ++ [ackBytes s.snd.expectedAck] := by
    rw [← h.inStep]
    rfl
  exact
    { hend with
      sndTx := hend.sndTx.trans (List.append_assoc _ _ _)
      rcvTx := hend.rcvTx.trans (acked ▸ List.append_assoc _ _ _)
      dlv := hend.dlv.trans (List.append_assoc _ _ _) }

/-- The last two turns: DONE is sent (R123) and received (R136). -/
theorem SessionAt.run_finish (h : SessionAt s [] more more' rest) :
    ∃ t, s.run 2 = .next t ∧ SessionEnd s t [] more more' rest := by
  refine ⟨(s.finished (.receiverStep :: rest)).closed more rest, ?run,
    rfl, rfl, h.off_eq, rfl, (List.append_nil _).symm, (List.append_nil _).symm, rfl, h.sndRx, rfl⟩
  case run =>
    calc s.run 2
      _ = (s.finished (.receiverStep :: rest)).run 1 := State.run_finished h.legal h.idle h.off_eq h.sched 1
      _ = _ := State.run_closed (s := s.finished _) h.legal h.listening h.rcvRx rfl 0

/-- A fault-free session delivers every chunk that is left, by induction on their list. -/
theorem SessionAt.run (h : SessionAt s chs more more' rest) :
    ∃ t, s.run (3 * chs.length + 2) = .next t ∧ SessionEnd s t chs more more' rest := by
  induction chs generalizing s with
  | nil => exact h.run_finish
  | cons ch chs ih =>
    obtain ⟨t, hrun, hend⟩ := ih h.exchanged
    exact ⟨t, (h.run_exchange _).trans hrun, hend.of_exchanged h⟩

end Exchange

end Sys2Proof.Machine

namespace Sys2Proof.Proofs

open Sys2Proof Sys2Proof.Machine

/-- Settles O57: after the frame is built, by induction on the timeouts left. -/
theorem senderAbortsAfterRetryLimit : Obligations.SenderAbortsAfterRetryLimit := by
  intro s more rest hl hst hlt hcount hx hs f
  obtain ⟨k, hk⟩ : ∃ k, s.cfg.retryLimit = k + 1 :=
    Nat.exists_eq_succ_of_ne_zero (Params.retryLimit_bounds hl).1.ne'
  let sent := s.sent (List.replicate (k + 1) .senderStep ++ rest)
  have built : sent.frameInFlight = f := State.sent_frameInFlight hl
  have hleft : s.snd.retryCount.toNat + (k + 1) = s.cfg.retryLimit := by
    rw [hcount, hk]
    exact Nat.zero_add _
  obtain ⟨t, hrun, hend⟩ := run_timeouts (s := sent) (more := more) k hl rfl hleft (hk ▸ hx) rfl
  rw [hk] at hs ⊢
  rw [built] at hend
  exact ⟨t, (State.run_sent hl hst hlt hs (k + 1)).trans hrun, hend.state, hend.cause, hend.count.trans hk,
    hend.off, hend.sndTx.trans (List.append_assoc _ _ _), hend.sndRx, hend.sched, hend.rcv⟩

/-- Settles O59: at `snd.off` = 0 all of the payload is left. -/
theorem faultFreeSessionDeliversPayload : Obligations.FaultFreeSessionDeliversPayload := by
  intro s more more' rest hl hfits hst hoff hplen hlisten hseq payload chs frames acks htext hrcvRx hsndRx
    hsched
  have hzero : s.snd.off.toNat = 0 := congrArg BitVec.toNat hoff
  have start : SessionAt s chs more more' rest :=
    { legal := hl, fits := hfits, idle := hst, inPayload := by rw [hzero]; exact Nat.zero_le _
      listening := hlisten, inStep := hseq
      chunks := by rw [State.payloadLeft, hzero]; rfl
      text := htext, rcvRx := hrcvRx, sndRx := hsndRx, sched := hsched }
  obtain ⟨t, hrun, hend⟩ := start.run
  exact ⟨t, hrun, hend.sndState, hend.rcvState, hend.off, hend.sndTx, hend.rcvTx, hend.dlv,
    chunks_flatten (Params.chunkSize_pos hl), hend.rcvRx, hend.sndRx, hend.sched⟩

end Sys2Proof.Proofs
end

section
/-!
PROOFS. The receiver engine (44_receiver.md), row by row of R134: what RCV_START opens and what each turn
answers and changes.
-/

namespace Sys2Proof.Machine

open Sys2Proof

section Rows

variable {s : State} {x : RxSignals} {more : List RxSignals} {m p d : ByteString} {seq : Byte}

/-! ### RCV_START (R133) -/

theorem exec_rcvStart_busy (h : s.rcv.state = .listening) : exec .rcvStart s = raise .eBusy s := by
  simp only [exec, execRcvStart, h]

theorem exec_rcvStart_opens (h : s.rcv.state ≠ .listening) :
    exec .rcvStart s =
      succeed 0
        { s with
          rcv :=
            { state := .listening, expectedSeq := 0x01, timeoutCount := 0, delivered := false, dcount := 0,
              cause := .noAbort } } := by
  cases hst : s.rcv.state with
  | listening => exact absurd hst h
  | _ => simp only [exec, execRcvStart, hst]

/-! ### The answer to a message (R136 to R141) -/

theorem rcvMessage_done : rcvMessage (Token.wire .done) s = rcvDone s := if_pos rfl

theorem rcvMessage_short (hm : m ≠ Token.wire .done) (hlen : m.length < 10) :
    rcvMessage m s = rcvMismatch s := by
  simp only [rcvMessage, if_neg hm, frameFields_eq_none_iff.2 hlen]

theorem rcvMessage_long (hlen : 10 ≤ m.length) (hmax : s.cfg.rxMsgMax < m.length) :
    rcvMessage m s = rcvMismatch s := by
  obtain ⟨p, d, seq, rfl, hd⟩ := exists_frame_split hlen
  simp only [rcvMessage, if_neg (ne_wire_of_length hlen _), frameFields_append p d seq hd, if_pos hmax]

theorem rcvMessage_badChecksum (hd : d.length = 9) (hmax : p.length + 10 ≤ s.cfg.rxMsgMax)
    (h : digest s.cfg.digestFormat p ≠ d) : rcvMessage (p ++ d ++ [seq]) s = rcvMismatch s := by
  have bad : verify s.cfg.digestFormat p d = false := beq_eq_false_iff_ne.2 h
  rw [rcvMessage_frame s p d seq hd hmax, bad]
  exact if_pos rfl

/-- A code that is neither expected nor earlier is refused whatever the checksum says. -/
theorem rcvMessage_unknownSeq (hd : d.length = 9) (hmax : p.length + 10 ≤ s.cfg.rxMsgMax)
    (hne : seq ≠ s.rcv.expectedSeq) (h : earlier s.cfg.staleWindow seq s.rcv.expectedSeq = false) :
    rcvMessage (p ++ d ++ [seq]) s = rcvMismatch s := by
  rw [rcvMessage_frame s p d seq hd hmax, if_neg hne, h, if_neg Bool.false_ne_true, ite_self]

/-- A frame with a valid checksum is answered by its code and its text (R138 to R141). -/
theorem rcvMessage_valid (hmax : p.length + 10 ≤ s.cfg.rxMsgMax) :
    rcvMessage (frameBytes s.cfg.digestFormat p seq) s =
      if seq = s.rcv.expectedSeq then
        if textOk s.cfg.textCheck p then rcvAccept p s else rcvUnicode s
      else if earlier s.cfg.staleWindow seq s.rcv.expectedSeq then rcvReack seq s
      else rcvMismatch s := by
  rw [frameBytes, rcvMessage_frame s p _ seq (digest_length _ _) hmax, verify_digest]
  rfl

theorem rcvMessage_badText (hmax : p.length + 10 ≤ s.cfg.rxMsgMax)
    (htext : textOk s.cfg.textCheck p = false) :
    rcvMessage (frameBytes s.cfg.digestFormat p s.rcv.expectedSeq) s = rcvUnicode s := by
  rw [rcvMessage_valid hmax, if_pos rfl, htext]
  rfl

/-- An earlier code is not the expected one, so only its ack is repeated. -/
theorem rcvMessage_earlier (hmax : p.length + 10 ≤ s.cfg.rxMsgMax)
    (h : earlier s.cfg.staleWindow seq s.rcv.expectedSeq = true) :
    rcvMessage (frameBytes s.cfg.digestFormat p seq) s = rcvReack seq s := by
  have hne : seq ≠ s.rcv.expectedSeq := by
    rintro rfl
    rw [earlier_self] at h
    exact Bool.false_ne_true h
  rw [rcvMessage_valid hmax, if_neg hne, if_pos h]

/-! ### The receiver's turn on an event (R134) -/

/-- `s` as its receiver begins to answer what it read, with `more` still to come (R135). -/
def State.heard (s : State) (more : List RxSignals) : State := rcvBegin { s with rcvRx := more }

theorem receiverStep_msg (hst : s.rcv.state = .listening) (hx : s.rcvRx = x :: more)
    (he : x.event = some (.msg m)) : receiverStep s = rcvMessage m (s.heard more) := by
  rw [receiverStep_read hst hx, he]
  rfl

/-- A message that gets NotSame changes no counter (R137, R141). -/
theorem receiverStep_mismatch (hst : s.rcv.state = .listening) (hx : s.rcvRx = x :: more)
    (he : x.event = some (.msg m)) (h : rcvMessage m (s.heard more) = rcvMismatch (s.heard more)) :
    receiverStep s =
      { s with
        rcvRx := more, rcv := { s.rcv with delivered := false }
        rcvTx := s.rcvTx ++ [Token.wire .mismatch] } := by
  rw [receiverStep_msg hst hx he, h]
  rfl

theorem receiverStep_accept (hst : s.rcv.state = .listening) (hx : s.rcvRx = x :: more)
    (he : x.event = some (.msg (frameBytes s.cfg.digestFormat p s.rcv.expectedSeq)))
    (hmax : p.length + 10 ≤ s.cfg.rxMsgMax) (htext : textOk s.cfg.textCheck p = true) :
    receiverStep s =
      { s with
        rcvRx := more
        rcv := { s.rcv with
          delivered := true, dcount := s.rcv.dcount + toWord p.length,
          expectedSeq := seqInc s.rcv.expectedSeq, timeoutCount := 0 }
        dlv := s.dlv ++ [p]
        rcvTx := s.rcvTx ++ [ackBytes s.rcv.expectedSeq] } := by
  have accept := rcvMessage_expected (s := s.heard more) hmax htext
  rw [receiverStep_msg hst hx he]
  exact accept.trans (rcvAccept_eq p rfl)

theorem receiverStep_badText (hst : s.rcv.state = .listening) (hx : s.rcvRx = x :: more)
    (he : x.event = some (.msg (frameBytes s.cfg.digestFormat p s.rcv.expectedSeq)))
    (hmax : p.length + 10 ≤ s.cfg.rxMsgMax) (htext : textOk s.cfg.textCheck p = false) :
    receiverStep s =
      { s with
        rcvRx := more, rcv := { s.rcv with delivered := false }
        rcvTx := s.rcvTx ++ [Token.wire .unicodeError] } := by
  rw [receiverStep_msg hst hx he]
  exact rcvMessage_badText (s := s.heard more) hmax htext

theorem receiverStep_reack (hst : s.rcv.state = .listening) (hx : s.rcvRx = x :: more)
    (he : x.event = some (.msg (frameBytes s.cfg.digestFormat p seq)))
    (hmax : p.length + 10 ≤ s.cfg.rxMsgMax)
    (h : earlier s.cfg.staleWindow seq s.rcv.expectedSeq = true) :
    receiverStep s =
      { s with
        rcvRx := more, rcv := { s.rcv with delivered := false, timeoutCount := 0 }
        rcvTx := s.rcvTx ++ [ackBytes seq] } := by
  rw [receiverStep_msg hst hx he]
  exact rcvMessage_earlier (s := s.heard more) hmax h

/-- A timeout that does not reach the limit is answered and counted (R142). -/
theorem receiverStep_timeout_reply (hst : s.rcv.state = .listening) (hx : s.rcvRx = x :: more)
    (he : x.event = some .timeout) (hn : (s.rcv.timeoutCount + 1).toNat ≠ s.cfg.timeoutLimit) :
    receiverStep s =
      { s with
        rcvRx := more
        rcv := { s.rcv with delivered := false, timeoutCount := s.rcv.timeoutCount + 1 }
        rcvTx := s.rcvTx ++ [Token.wire .timeout] } := by
  rw [receiverStep_read hst hx, he]
  exact if_neg hn

/-- The timeout that reaches the limit is answered too (R142). -/
theorem receiverStep_timeout_abort (hst : s.rcv.state = .listening) (hx : s.rcvRx = x :: more)
    (he : x.event = some .timeout) (hn : (s.rcv.timeoutCount + 1).toNat = s.cfg.timeoutLimit) :
    receiverStep s =
      { s with
        rcvRx := more
        rcv := { s.rcv with
          delivered := false, timeoutCount := s.rcv.timeoutCount + 1, state := .aborted,
          cause := .timeoutExhausted }
        rcvTx := s.rcvTx ++ [Token.wire .timeout] } := by
  rw [receiverStep_read hst hx, he]
  exact if_pos hn

theorem receiverStep_error (hst : s.rcv.state = .listening) (hx : s.rcvRx = x :: more)
    (he : x.event = some .error) :
    receiverStep s =
      { s with
        rcvRx := more
        rcv := { s.rcv with delivered := false, state := .aborted, cause := .transportError } } := by
  rw [receiverStep_read hst hx, he]
  rfl

end Rows

/-- The count of delivered bytes, as a number mod 2^32 (R40). -/
theorem add_toWord_eq_ofNat (w : Word) (n : Nat) : w + toWord n = BitVec.ofNat 32 (w.toNat + n) := by
  rw [BitVec.ofNat_add, BitVec.ofNat_toNat, BitVec.setWidth_eq, toWord]

end Sys2Proof.Machine

namespace Sys2Proof.Proofs

open Sys2Proof Sys2Proof.Machine

/-- Settles O28: each of the tests of R134 that a message can fail leads to the one answer. -/
theorem receiverRejectsWithMismatch : Obligations.ReceiverRejectsWithMismatch := by
  intro s x more m hst hx he hdone hbad
  refine receiverStep_mismatch hst hx he ?_
  by_cases hlen : m.length < 10
  · exact rcvMessage_short hdone hlen
  by_cases hmax : s.cfg.rxMsgMax < m.length
  · exact rcvMessage_long (not_lt.1 hlen) hmax
  obtain ⟨p, d, seq, rfl, hd, hfail⟩ := (hbad.resolve_left hlen).resolve_left hmax
  have hfits : p.length + 10 ≤ s.cfg.rxMsgMax := by
    simp only [List.length_append, hd, List.length_singleton] at hmax
    omega
  rcases hfail with hdigest | ⟨hne, hnotEarlier⟩
  · exact rcvMessage_badChecksum (s := s.heard more) hd hfits hdigest
  · exact rcvMessage_unknownSeq (s := s.heard more) hd hfits hne hnotEarlier

/-- Settles O29: the two answers to the expected frame, by its text. -/
theorem receiverTakesExpectedFrame : Obligations.ReceiverTakesExpectedFrame := by
  intro s x more p hst hx he hmax
  refine ⟨fun htext => ?accept, fun htext => receiverStep_badText hst hx he hmax htext⟩
  case accept =>
    rw [receiverStep_accept hst hx he hmax htext, add_toWord_eq_ofNat, seqInc_eq_ofNat]
    rfl

/-- Settles O30: the ack carries the code of the frame, not the expected one. -/
theorem receiverReacknowledgesEarlierFrame : Obligations.ReceiverReacknowledgesEarlierFrame :=
  fun _ _ _ _ _ hst hx he hmax _ hearlier => receiverStep_reack hst hx he hmax hearlier

/-- Settles O21: the busy test, then the start values. -/
theorem rcvStartOpensSession : Obligations.RcvStartOpensSession := by
  refine ⟨selectedBy_of_ignoresSeq (i := .rcvStart) rfl, fun s => ⟨fun hst => ?busy, fun hended => ?start⟩⟩
  case busy => rw [exec_rcvStart_busy hst, raise_eq]
  case start =>
    have hstopped : s.rcv.state ≠ .listening := by
      rcases hended with h | h | h <;> simp [h]
    rw [exec_rcvStart_opens hstopped, succeed_eq]

/-- Settles O27: DONE and the transport error are answered by a change of state only. -/
theorem receiverEndsOnDoneOrError : Obligations.ReceiverEndsOnDoneOrError := by
  intro s x more hst hx
  refine ⟨fun he => ?done, receiverStep_error hst hx⟩
  case done =>
    rw [receiverStep_msg hst hx he]
    exact rcvMessage_done

/-- Settles O31: below its limit the 8-bit count does not wrap, so the limit test reads the true count. -/
theorem receiverTimeoutsAndAborts : Obligations.ReceiverTimeoutsAndAborts := by
  intro s x more hst hx he hlt hlimit tok
  have hsucc := count_succ_toNat hlt hlimit
  exact ⟨fun hn => receiverStep_timeout_reply hst hx he (hsucc.trans_ne hn),
    fun hn => receiverStep_timeout_abort hst hx he (hsucc.trans hn), rfl⟩

end Sys2Proof.Proofs
end

section
/-!
PROOFS. The receiver over whole steps and runs: what leaves an ended session (R144), what a delivery tells
(R145), a repeated frame (R140), and a wait that always ends in a timeout (R147).
-/

namespace Sys2Proof.Machine

open Sys2Proof

/-! ### Ended sessions (R128, R144) -/

section Ended

variable {s t : State}

theorem senderStep_ended (h : s.senderEnded) : senderStep s = s := h.elim senderStep_done senderStep_aborted

theorem receiverStep_ended (h : s.receiverEnded) : receiverStep s = s :=
  receiverStep_stopped fun hst => by rcases h with h | h <;> simp [h] at hst

/-- A command other than the two START commands leaves both engines alone, and each of those the other
engine. -/
theorem exec_engines_cases {i : Instr} (h : exec i s = .next t) :
    (t.snd = s.snd ∧ t.rcv = s.rcv) ∨ (i = .sndStart ∧ t.rcv = s.rcv) ∨ (i = .rcvStart ∧ t.snd = s.snd) := by
  rcases exec_cases h with ⟨e, rfl⟩ | ⟨r, g, -, rfl⟩ | ⟨r, g, v, -, -, rfl⟩ | ⟨hi, -, -, r, rfl⟩ |
    ⟨hi, -, rfl⟩
  case inr.inr.inr.inl => exact .inr (.inl ⟨hi, rfl⟩)
  case inr.inr.inr.inr => exact .inr (.inr ⟨hi, rfl⟩)
  all_goals exact .inl ⟨rfl, rfl⟩

/-- The host reaches an engine through its START command only. -/
theorem hostAccess_engines_cases {acc : HostAccess} (h : hostAccess acc s = .next t) :
    (t.snd = s.snd ∧ t.rcv = s.rcv) ∨
      ∃ w, acc = .writeWord 0 w ∧
        ((decode w = .command .sndStart ∧ t.rcv = s.rcv) ∨
          (decode w = .command .rcvStart ∧ t.snd = s.snd)) := by
  rcases hostAccess_cases h with rfl | ⟨v, rfl⟩ | ⟨v, rfl⟩ | ⟨v, rfl⟩ | ⟨-, v, rfl⟩ | ⟨e, rfl⟩ |
    ⟨w, i, hacc, hw, hexec⟩ | ⟨a, v, -, rfl⟩ | ⟨-, a, v, -, rfl⟩
  case inr.inr.inr.inr.inr.inr.inl =>
    rcases exec_engines_cases hexec with hkept | ⟨rfl, hrcv⟩ | ⟨rfl, hsnd⟩
    · exact .inl hkept
    · exact .inr ⟨w, hacc, .inl ⟨hw, hrcv⟩⟩
    · exact .inr ⟨w, hacc, .inr ⟨hw, hsnd⟩⟩
  all_goals exact .inl ⟨rfl, rfl⟩

end Ended

/-! ### Deliveries (R145) -/

section Deliveries

variable {s t : State}

/-- No host access delivers, not even a command. -/
theorem hostAccess_dlv {acc : HostAccess} (h : hostAccess acc s = .next t) : t.dlv = s.dlv := by
  rcases hostAccess_cases h with rfl | ⟨v, rfl⟩ | ⟨v, rfl⟩ | ⟨v, rfl⟩ | ⟨-, v, rfl⟩ | ⟨e, rfl⟩ |
    ⟨w, i, -, -, hexec⟩ | ⟨a, v, -, rfl⟩ | ⟨-, a, v, -, rfl⟩
  case inr.inr.inr.inr.inr.inr.inl =>
    rcases exec_cases hexec with ⟨e, rfl⟩ | ⟨r, g, -, rfl⟩ | ⟨r, g, v, -, -, rfl⟩ | ⟨-, -, -, r, rfl⟩ |
      ⟨-, -, rfl⟩ <;> rfl
  all_goals rfl

/-- From `s` to `t` the receiver reads `x`, the frame of `p` with the expected code, and delivers `p`
(R138). -/
structure Delivers (s t : State) (p : ByteString) (x : RxSignals) (more : List RxSignals) : Prop where
  listening : s.rcv.state = .listening
  rcvRx : s.rcvRx = x :: more
  frame : x.event = some (.msg (frameBytes s.cfg.digestFormat p s.rcv.expectedSeq))
  text : textOk s.cfg.textCheck p = true
  dlv : t.dlv = s.dlv ++ [p]
  rcvTx : t.rcvTx = s.rcvTx ++ [ackBytes s.rcv.expectedSeq]
  expectedSeq : t.rcv.expectedSeq = seqInc s.rcv.expectedSeq
  timeoutCount : t.rcv.timeoutCount = 0

/-- Of the rows of R134 only that of the expected frame delivers. -/
theorem receiverStep_dlv_cases (s : State) :
    (receiverStep s).dlv = s.dlv ∨ ∃ x more p, Delivers s (receiverStep s) p x more := by
  by_cases hst : s.rcv.state = .listening
  case neg => exact .inl (by rw [receiverStep_stopped hst])
  cases hx : s.rcvRx with
  | nil => exact .inl (by rw [receiverStep_wait hst hx])
  | cons x more =>
    match he : x.event with
    | none => exact .inl (by rw [receiverStep_noEvent hst hx he])
    | some .error => exact .inl (by rw [receiverStep_error hst hx he])
    | some .timeout =>
      by_cases hn : (s.rcv.timeoutCount + 1).toNat = s.cfg.timeoutLimit
      · exact .inl (by rw [receiverStep_timeout_abort hst hx he hn])
      · exact .inl (by rw [receiverStep_timeout_reply hst hx he hn])
    | some (.msg m) =>
      rw [receiverStep_msg hst hx he]
      rcases rcvMessage_cases m (s.heard more) with ⟨-, hm⟩ | hm |
        ⟨p, seq, hframe, -, ⟨hseq, htext, hm⟩ | ⟨-, -, hm⟩ | ⟨-, -, hm⟩⟩
      case inr.inr.inl =>
        rw [hm, rcvAccept_eq p rfl]
        exact .inr ⟨x, more, p, hst, hx, by rw [he, hframe, hseq]; rfl, htext, rfl, rfl, rfl, rfl⟩
      all_goals exact .inl (by rw [hm]; rfl)

end Deliveries

/-! ### A frame that arrives again (R140) -/

section Reack

variable {s : State} {p : ByteString} {seq : Byte} {more : List RxSignals} {rest : List Action}

theorem Params.staleWindow_pos {c : Params} (h : c.legal = true) : 1 ≤ c.staleWindow := by
  rw [Params.legal_iff] at h
  omega

/-- `s` after its receiver repeated the ack of an earlier frame with code `seq` (R140). -/
def State.reacked (s : State) (seq : Byte) (more : List RxSignals) (rest : List Action) : State :=
  { s with
    sched := rest, rcvRx := more, rcv := { s.rcv with delivered := false, timeoutCount := 0 }
    rcvTx := s.rcvTx ++ [ackBytes seq] }

theorem State.run_reacked (hl : s.cfg.legal = true) (hst : s.rcv.state = .listening)
    (hx : s.rcvRx = (RxEvent.msg (frameBytes s.cfg.digestFormat p seq)).signals :: more)
    (hmax : p.length + 10 ≤ s.cfg.rxMsgMax)
    (h : earlier s.cfg.staleWindow seq s.rcv.expectedSeq = true) (hs : s.sched = .receiverStep :: rest)
    (k : Nat) : s.run (k + 1) = (s.reacked seq more rest).run k := by
  rw [State.run_receiverStep hl hs, receiverStep_reack hst hx (RxEvent.event_signals _) hmax h]
  rfl

end Reack

/-! ### Timeouts up to the limit (R142, R147) -/

section Silence

/-- `s` after its receiver answered one more timeout below the limit. -/
def State.timedOut (s : State) (more : List RxSignals) (rest : List Action) : State :=
  { s with
    sched := rest, rcvRx := more
    rcv := { s.rcv with delivered := false, timeoutCount := s.rcv.timeoutCount + 1 }
    rcvTx := s.rcvTx ++ [Token.wire .timeout] }

/-- `t` is `s` after the receiver answered `n` timeouts and aborted at the last, with `more` and `rest`
still to come. -/
structure GaveUpListening (s t : State) (n : Nat) (more : List RxSignals) (rest : List Action) : Prop where
  state : t.rcv.state = .aborted
  cause : t.rcv.cause = .timeoutExhausted
  count : t.rcv.timeoutCount.toNat = s.cfg.timeoutLimit
  expectedSeq : t.rcv.expectedSeq = s.rcv.expectedSeq
  rcvTx : t.rcvTx = s.rcvTx ++ List.replicate n (Token.wire .timeout)
  dlv : t.dlv = s.dlv
  rcvRx : t.rcvRx = more
  sched : t.sched = rest
  snd : t.snd = s.snd

variable {s t : State} {more more' : List RxSignals} {rest rest' : List Action} {n : Nat}

theorem timeoutCount_succ_toNat (hl : s.cfg.legal = true)
    (h : s.rcv.timeoutCount.toNat < s.cfg.timeoutLimit) :
    (s.rcv.timeoutCount + 1).toNat = s.rcv.timeoutCount.toNat + 1 :=
  count_succ_toNat h (Params.timeoutLimit_bounds hl).2

theorem State.run_timedOut (hl : s.cfg.legal = true) (hst : s.rcv.state = .listening)
    (hx : s.rcvRx = RxEvent.timeout.signals :: more) (hs : s.sched = .receiverStep :: rest)
    (hn : (s.rcv.timeoutCount + 1).toNat ≠ s.cfg.timeoutLimit) (k : Nat) :
    s.run (k + 1) = (s.timedOut more rest).run k := by
  rw [State.run_receiverStep hl hs, receiverStep_timeout_reply hst hx (RxEvent.event_signals _) hn]
  rfl

theorem GaveUpListening.of_timedOut (h : GaveUpListening (s.timedOut more' rest') t n more rest) :
    GaveUpListening s t (n + 1) more rest :=
  { h with rcvTx := h.rcvTx.trans (List.append_assoc _ _ _) }

/-- A receiver that is `k + 1` timeouts away from its limit answers them all and aborts. -/
theorem run_rcvTimeouts (k : Nat) (hl : s.cfg.legal = true) (hst : s.rcv.state = .listening)
    (hcount : s.rcv.timeoutCount.toNat + (k + 1) = s.cfg.timeoutLimit)
    (hx : s.rcvRx = List.replicate (k + 1) RxEvent.timeout.signals ++ more)
    (hs : s.sched = List.replicate (k + 1) .receiverStep ++ rest) :
    ∃ t, s.run (k + 1) = .next t ∧ GaveUpListening s t (k + 1) more rest := by
  induction k generalizing s with
  | zero =>
    have hlimit := (timeoutCount_succ_toNat hl (by omega)).trans hcount
    refine ⟨_, State.run_receiverStep (rest := rest) hl hs 0, ?_⟩
    rw [receiverStep_timeout_abort (more := more) hst hx (RxEvent.event_signals _) hlimit]
    exact ⟨rfl, rfl, hlimit, rfl, rfl, rfl, rfl, rfl, rfl⟩
  | succ k ih =>
    have hsucc := timeoutCount_succ_toNat (s := s) hl (by omega)
    have hrest : (s.rcv.timeoutCount + 1).toNat + (k + 1) = s.cfg.timeoutLimit := by omega
    rw [State.run_timedOut hl hst hx hs (by omega)]
    obtain ⟨t, hrun, hend⟩ := ih (s := s.timedOut _ _) hl hst hrest rfl rfl
    exact ⟨t, hrun, hend.of_timedOut⟩

end Silence

end Sys2Proof.Machine

namespace Sys2Proof.Proofs

open Sys2Proof Sys2Proof.Machine

/-- Settles O52: an ended engine's own turn does nothing, and neither the other engine's turn nor a host
access reaches it, but for its START command. -/
theorem endedSessionsAreTerminal : Obligations.EndedSessionsAreTerminal := by
  intro s t hstep
  obtain ⟨-, ⟨-, rfl⟩ | ⟨rest, ⟨acc, hs, hacc⟩ | ⟨-, rfl⟩ | ⟨-, rfl⟩ | ⟨hs, -⟩⟩⟩ := step_cases hstep
  case inl => exact ⟨fun _ h => absurd rfl h, fun _ h => absurd rfl h⟩
  case inr.inl =>
    rcases hostAccess_engines_cases hacc with ⟨hsnd, hrcv⟩ | ⟨w, rfl, ⟨hw, hrcv⟩ | ⟨hw, hsnd⟩⟩
    · exact ⟨fun _ h => absurd hsnd h, fun _ h => absurd hrcv h⟩
    · exact ⟨fun _ _ => ⟨rest, .inr ⟨w, hs, hw⟩⟩, fun _ h => absurd hrcv h⟩
    · exact ⟨fun _ h => absurd hsnd h, fun _ _ => ⟨rest, .inr ⟨w, hs, hw⟩⟩⟩
  case inr.inr.inl =>
    refine ⟨fun hended h => absurd ?_ h, fun _ h => absurd ?_ h⟩
    · rw [senderStep_ended (s := { s with sched := rest }) hended]
    · rw [senderStep_eq_withSender]
      rfl
  case inr.inr.inr.inl =>
    refine ⟨fun _ h => absurd ?_ h, fun hended h => absurd ?_ h⟩
    · rw [receiverStep_eq_withReceiver]
      rfl
    · rw [receiverStep_ended (s := { s with sched := rest }) hended]
  case inr.inr.inr.inr => exact ⟨fun _ _ => ⟨rest, .inl hs⟩, fun _ _ => ⟨rest, .inl hs⟩⟩

/-- Settles O55: the host and the sender deliver nothing, and the receiver's turn only an expected frame. -/
theorem deliveryOnlyOfExpectedValidFrame : Obligations.DeliveryOnlyOfExpectedValidFrame := by
  intro s t hstep hreset hdlv
  obtain ⟨-, ⟨-, rfl⟩ | ⟨rest, ⟨acc, -, hacc⟩ | ⟨-, rfl⟩ | ⟨-, rfl⟩ | ⟨hs, -⟩⟩⟩ := step_cases hstep
  · exact absurd rfl hdlv
  · exact absurd (hostAccess_dlv hacc) hdlv
  · rw [senderStep_eq_withSender] at hdlv
    exact absurd rfl hdlv
  · obtain ⟨x, more, p, h⟩ := (receiverStep_dlv_cases { s with sched := rest }).resolve_left hdlv
    exact ⟨x, more, p, h.listening, h.rcvRx, h.frame, h.text, h.dlv, h.rcvTx, h.expectedSeq, h.timeoutCount⟩
  · exact absurd hs (hreset rest)

/-- Settles O56: once accepted, the code of the frame is one step behind the expected one, hence earlier. -/
theorem duplicateFrameDeliveredOnce : Obligations.DuplicateFrameDeliveredOnce := by
  intro s p more rest hl hst hmax htext f hx hs
  let t := s.accepted p ((RxEvent.msg f).signals :: more) (.receiverStep :: rest)
  have stale : earlier s.cfg.staleWindow s.rcv.expectedSeq t.rcv.expectedSeq = true :=
    earlier_seqInc (Params.staleWindow_pos hl) _
  refine ⟨t.reacked s.rcv.expectedSeq more rest, ?run, rfl, List.append_assoc _ _ _, rfl, hst,
    add_toWord_eq_ofNat _ _, rfl⟩
  case run =>
    calc s.run 2
      _ = t.run 1 := State.run_accepted hl hst hx hmax htext hs 1
      _ = _ := State.run_reacked (s := t) hl hst rfl hmax stale rfl 0

/-- Settles O58, by induction on the timeouts left. -/
theorem receiverAbortsAfterTimeoutLimit : Obligations.ReceiverAbortsAfterTimeoutLimit := by
  intro s more rest hl hst hcount hx hs
  obtain ⟨k, hk⟩ : ∃ k, s.cfg.timeoutLimit = k + 1 :=
    Nat.exists_eq_succ_of_ne_zero (Params.timeoutLimit_bounds hl).1.ne'
  have hleft : s.rcv.timeoutCount.toNat + (k + 1) = s.cfg.timeoutLimit := by
    rw [hcount, hk]
    exact Nat.zero_add _
  rw [hk] at hx hs
  obtain ⟨t, hrun, hend⟩ := run_rcvTimeouts k hl hst hleft hx hs
  rw [hk]
  exact ⟨t, hrun, hend.state, hend.cause, hend.count.trans hk, hend.expectedSeq, hend.rcvTx, hend.dlv,
    hend.rcvRx, hend.sched, hend.snd⟩

end Sys2Proof.Proofs
end

section
/-!
PROOFS. Exceptions (60_exceptions.md): an illegal command word (R150), and what a command error leaves alone
(R153).
-/

namespace Sys2Proof.Machine

open Sys2Proof

/-- A command either ends with ERR at E_NONE or writes ERR alone (R153). -/
theorem exec_err_cases {i : Instr} {s t : State} (h : exec i s = .next t) :
    t.err = .eNone ∨ ∃ e, t = s.setErr e := by
  rcases exec_cases h with herr | ⟨r, g, -, rfl⟩ | ⟨r, g, v, -, -, rfl⟩ | ⟨-, -, -, r, rfl⟩ | ⟨-, -, rfl⟩
  case inl => exact .inr herr
  all_goals exact .inl rfl

/-- A word the decoder finds illegal only raises E_ILLEGAL_OP (R76, R150). -/
theorem runCommand_of_illegal {w : Word} {why : IllegalWord} (h : decode w = .illegal why) (s : State) :
    runCommand w s = raise .eIllegalOp s := by
  simp only [runCommand, h]

end Sys2Proof.Machine

namespace Sys2Proof.Proofs

open Sys2Proof Sys2Proof.Machine

/-- Settles O22: with ERR other than E_NONE, the command's end is the one that writes ERR alone. -/
theorem commandErrorsChangeOnlyErr : Obligations.CommandErrorsChangeOnlyErr := by
  intro i s t hexec herr
  obtain ⟨e, rfl⟩ := (exec_err_cases hexec).resolve_left herr
  rfl

/-- Settles O6: the scheduled write reaches CMD, and the decoder agrees with R76 that the word is illegal. -/
theorem illegalWordOnlySetsErr : Obligations.IllegalWordOnlySetsErr := by
  intro s w rest hlegal hs hw
  obtain ⟨why, hwhy⟩ := (decodeTotalByTable w).2.1 hw
  refine ⟨?step, rfl⟩
  case step =>
    rw [step_cons hlegal hs, perform_writeCmd, runCommand_of_illegal hwhy, raise_eq]

end Sys2Proof.Proofs
end

section
/-!
PROOFS. Reset and what outlasts every step: the registers, engines and storage after reset (R169, R170), the
fixed parameters (R175) and the traces that only grow (R45).
-/

namespace Sys2Proof.Machine

open Sys2Proof

/-! ### The reset values (R169, R170) -/

section Reset

variable {s : State}

theorem step_reset {rest : List Action} (hl : s.cfg.legal = true) (hs : s.sched = .reset :: rest) :
    step s = .next (State.assertReset { s with sched := rest }) := step_cons hl hs

/-- The CFG registers show the parameters and nothing else (R33). -/
theorem State.readReg_cfg_congr {t : State} (hcfg : t.cfg = s.cfg) {r : Reg}
    (hr : r ∈ [Reg.cfgC, .cfgLimits, .cfgIbuf, .cfgObuf, .cfgPmem, .cfgRxmax]) :
    t.readReg r = s.readReg r := by
  simp only [List.mem_cons, List.not_mem_nil, or_false] at hr
  rcases hr with rfl | rfl | rfl | rfl | rfl | rfl <;> simp only [State.readReg, hcfg]

theorem Sender.reset_status : Sender.reset.status = 0x00010000 := by decide

theorem Receiver.reset_status : Receiver.reset.status = 0x00010000 := by decide

theorem State.assertReset_cfg (s : State) : s.assertReset.cfg = s.cfg := rfl

/-- The nine zero digest bytes, and the zeros above them, pack to zero (R32). -/
theorem State.assertReset_digestWord (s : State) (k : Nat) : s.assertReset.digestWord k = 0 := by
  have zeros (i : Nat) : s.assertReset.dgst.getD i 0 = 0 :=
    List.getElem?_getD_replicate_default_eq 0 9 i
  simp only [State.digestWord, zeros]
  decide

/-- After reset no storage holds a written byte. -/
theorem State.assertReset_mem (s : State) (sp : Space) : s.assertReset.mem sp = [] := by cases sp <;> rfl

theorem State.byteAt_of_mem_nil {sp : Space} (h : s.mem sp = []) (a : Nat) :
    s.byteAt sp a = Config.unspecifiedByte s.draw sp a := by
  simp only [State.byteAt, h, Memory.lookup]

end Reset

/-! ### Traces that only grow (R45) -/

/-- The trace `later` is `now` with at most one entry more. -/
def GainsAtMostOne (now later : List ByteString) : Prop := ∃ a, later = now ++ a ∧ a.length ≤ 1

theorem GainsAtMostOne.of_same {now later : List ByteString} (h : later = now) : GainsAtMostOne now later :=
  ⟨[], by rw [h, List.append_nil], Nat.zero_le 1⟩

theorem GainsAtMostOne.of_entry {now later : List ByteString} {m : ByteString} (h : later = now ++ [m]) :
    GainsAtMostOne now later := ⟨[m], h, le_rfl⟩

/-- From `s` to `t` the parameters stay, and each trace gains at most one entry. -/
structure TracesGrow (s t : State) : Prop where
  cfg : t.cfg = s.cfg
  sndTx : GainsAtMostOne s.sndTx t.sndTx
  rcvTx : GainsAtMostOne s.rcvTx t.rcvTx
  dlv : GainsAtMostOne s.dlv t.dlv

section Growth

variable {s t : State}

theorem TracesGrow.of_same (hcfg : t.cfg = s.cfg) (hsnd : t.sndTx = s.sndTx) (hrcv : t.rcvTx = s.rcvTx)
    (hdlv : t.dlv = s.dlv) : TracesGrow s t := ⟨hcfg, .of_same hsnd, .of_same hrcv, .of_same hdlv⟩

/-- No command writes a parameter (R175) or a trace. -/
theorem tracesGrow_exec {i : Instr} (h : exec i s = .next t) : TracesGrow s t := by
  rcases exec_cases h with ⟨e, rfl⟩ | ⟨r, g, -, rfl⟩ | ⟨r, g, v, -, -, rfl⟩ | ⟨-, -, -, r, rfl⟩ |
    ⟨-, -, rfl⟩ <;> exact .of_same rfl rfl rfl rfl

/-- The host reaches neither a parameter nor a trace. -/
theorem tracesGrow_hostAccess {acc : HostAccess} (h : hostAccess acc s = .next t) : TracesGrow s t := by
  rcases hostAccess_cases h with rfl | ⟨v, rfl⟩ | ⟨v, rfl⟩ | ⟨v, rfl⟩ | ⟨-, v, rfl⟩ | ⟨e, rfl⟩ |
    ⟨w, i, -, -, hexec⟩ | ⟨a, v, -, rfl⟩ | ⟨-, a, v, -, rfl⟩
  case inr.inr.inr.inr.inr.inr.inl => exact tracesGrow_exec hexec
  all_goals exact .of_same rfl rfl rfl rfl

/-- Each row of R121 sends one message at most, in every state of the sender. -/
theorem senderStep_sndTx (s : State) : GainsAtMostOne s.sndTx (senderStep s).sndTx := by
  cases hst : s.snd.state with
  | off => exact .of_same (by rw [senderStep_off hst])
  | done => exact .of_same (by rw [senderStep_done hst])
  | aborted => exact .of_same (by rw [senderStep_aborted hst])
  | idle =>
    rcases lt_trichotomy s.snd.off.toNat s.snd.plen.toNat with hlt | heq | hgt
    · rw [senderStep_build hst hlt]
      exact .of_entry rfl
    · rw [senderStep_finish hst (BitVec.eq_of_toNat_eq heq)]
      exact .of_entry rfl
    · exact .of_same (by rw [senderStep_past hst hgt])
  | awaitingAck =>
    cases hx : s.sndRx with
    | nil => exact .of_same (by rw [senderStep_wait hst hx])
    | cons x more =>
      rw [senderStep_read hst hx]
      exact (sndEvent_sndTx_cases x.event { s with sndRx := more }).elim .of_same .of_entry

/-- Each row of R134 sends one reply at most: DONE and a transport error get none, all else gets one. -/
theorem receiverStep_rcvTx (s : State) : GainsAtMostOne s.rcvTx (receiverStep s).rcvTx := by
  by_cases hst : s.rcv.state = .listening
  case neg => exact .of_same (by rw [receiverStep_stopped hst])
  cases hx : s.rcvRx with
  | nil => exact .of_same (by rw [receiverStep_wait hst hx])
  | cons x more =>
    match he : x.event with
    | none => exact .of_same (by rw [receiverStep_noEvent hst hx he])
    | some .error => exact .of_same (by rw [receiverStep_error hst hx he])
    | some .timeout =>
      by_cases hn : (s.rcv.timeoutCount + 1).toNat = s.cfg.timeoutLimit
      · exact .of_entry (by rw [receiverStep_timeout_abort hst hx he hn])
      · exact .of_entry (by rw [receiverStep_timeout_reply hst hx he hn])
    | some (.msg m) =>
      rw [receiverStep_msg hst hx he]
      rcases rcvMessage_cases m (s.heard more) with ⟨-, hm⟩ | hm |
        ⟨p, seq, -, -, ⟨-, -, hm⟩ | ⟨-, -, hm⟩ | ⟨-, -, hm⟩⟩
      case inl => exact .of_same (by rw [hm]; rfl)
      case inr.inr.inl => exact .of_entry (by rw [hm, rcvAccept_eq p rfl]; rfl)
      all_goals exact .of_entry (by rw [hm]; rfl)

/-- A delivery is of one payload. -/
theorem receiverStep_dlv (s : State) : GainsAtMostOne s.dlv (receiverStep s).dlv := by
  rcases receiverStep_dlv_cases s with hsame | ⟨x, more, p, hdelivers⟩
  · exact .of_same hsame
  · exact .of_entry hdelivers.dlv

theorem tracesGrow_senderStep (s : State) : TracesGrow s (senderStep s) := by
  refine ⟨senderStep_cfg s, senderStep_sndTx s, .of_same ?_, .of_same ?_⟩ <;>
    rw [senderStep_eq_withSender] <;> rfl

theorem tracesGrow_receiverStep (s : State) : TracesGrow s (receiverStep s) := by
  refine ⟨?_, .of_same ?_, receiverStep_rcvTx s, receiverStep_dlv s⟩ <;>
    rw [receiverStep_eq_withReceiver] <;> rfl

/-- Every step but reset keeps the parameters and each trace up to one new entry. -/
theorem tracesGrow_step (hreset : ∀ rest, s.sched ≠ .reset :: rest) (hstep : step s = .next t) :
    TracesGrow s t := by
  obtain ⟨-, ⟨-, rfl⟩ | ⟨rest, hacts⟩⟩ := step_cases hstep
  · exact .of_same rfl rfl rfl rfl
  have untake : TracesGrow { s with sched := rest } t → TracesGrow s t := fun h =>
    ⟨h.cfg, h.sndTx, h.rcvTx, h.dlv⟩
  rcases hacts with ⟨acc, -, hacc⟩ | ⟨-, rfl⟩ | ⟨-, rfl⟩ | ⟨hs, -⟩
  · exact untake (tracesGrow_hostAccess hacc)
  · exact untake (tracesGrow_senderStep _)
  · exact untake (tracesGrow_receiverStep _)
  · exact absurd hs (hreset rest)

end Growth

end Sys2Proof.Machine

namespace Sys2Proof.Proofs

open Sys2Proof Sys2Proof.Machine

/-- Settles O50: a reset takes its parameters from the state it is asserted in, and every other step only
adds to the traces. -/
theorem parametersFixedTracesAppendOnly : Obligations.ParametersFixedTracesAppendOnly := by
  intro s t hstep
  by_cases hreset : ∃ rest, s.sched = .reset :: rest
  · obtain ⟨rest, hs⟩ := hreset
    obtain ⟨hl, -⟩ := step_cases hstep
    obtain rfl : State.assertReset { s with sched := rest } = t :=
      Host.Outcome.next.inj ((step_reset hl hs).symm.trans hstep)
    exact ⟨rfl, .inl ⟨rest, hs⟩⟩
  · obtain ⟨hcfg, ⟨a, hsnd, ha⟩, ⟨b, hrcv, hb⟩, ⟨c, hdlv, hc⟩⟩ :=
      tracesGrow_step (fun rest hs => hreset ⟨rest, hs⟩) hstep
    exact ⟨hcfg, .inr ⟨a, b, c, hsnd, hrcv, hdlv, ha, hb, hc⟩⟩

/-- Settles O47: the fields by `assertReset`, and the storage because it holds no written byte. -/
theorem resetSetsEveryField : Obligations.ResetSetsEveryField := by
  intro s rest hl hs
  have digestWord := State.assertReset_digestWord { s with sched := rest }
  refine ⟨_, step_reset hl hs, rfl, rfl, rfl, rfl, rfl, rfl, digestWord 0, digestWord 1, digestWord 2, rfl,
    ?config, Sender.reset_status, rfl, rfl, rfl, Receiver.reset_status, rfl, rfl, rfl, rfl, rfl, ?storage⟩
  case config => exact fun r => State.readReg_cfg_congr (s := s) (State.assertReset_cfg _)
  case storage => exact fun sp a => State.byteAt_of_mem_nil (State.assertReset_mem _ sp) a

/-- Settles O48: the configuration of `State.reset` is a legal one too. -/
theorem resetIsGood : Obligations.ResetIsGood :=
  ⟨inv_resetWith (by decide) 0, fun _ d hl => inv_resetWith hl d⟩

end Sys2Proof.Proofs
end
